-- ==== Sys2Proof/Word.lean ====
section
/-! DEFINITION. The word types of the Control Data 3400 (10_state R20 to R27, 30_encoding R90). -/

namespace Sys2Proof

/-- A storage word, A, Q, U, IR, MASK: 48 bits, bit 47 the sign (R11, R20). -/
abbrev Word := BitVec 48

/-- A 24-bit instruction, one half of a storage word (R90). -/
abbrev HalfWord := BitVec 24

/-- A 15-bit storage address, index register, execution address or count (R24, R25, R63). -/
abbrev Addr := BitVec 15

/-- A 3-bit designator b or v (R95). -/
abbrev Desig := BitVec 3

/-- One 8-bit cell of the memory representation. -/
abbrev Byte := BitVec 8

/-- The two instruction positions of a storage word (R27, R70 item 1). -/
inductive Half where
  | upper
  | lower
deriving DecidableEq, Repr

/-- Positive zero (R12). -/
abbrev plus0 : Word := 0

/-- Negative zero (R12). -/
abbrev minus0 : Word := BitVec.allOnes 48

end Sys2Proof
end

