-- ==== Sys2Proof/Config.lean ====
section
/-! DEFINITION. What an installation fixes (00_scope R4, R6) and the free values of the model.

`Config` is plain data that stands in the machine's state and that no step changes, so that a statement over every
state is a statement over every configuration.  The opaque constants are the values that the spec leaves open
(93_implementation_defined section 1): nothing can be proved of them. -/

namespace Sys2Proof

/-- Positions (lowest bits) of the fields of the seven 74.x instructions inside bits 38..0 (49_io R381 `IoLayout`):
x is 2 bits wide, c 12, m and n 15. -/
structure IoLayout where
  connX : Nat
  connC : Nat
  connN : Nat
  extfX : Nat
  extfC : Nat
  extfN : Nat
  begrX : Nat
  begrM : Nat
  begrN : Nat
  begwX : Nat
  begwM : Nat
  begwN : Nat
  copyX : Nat
  clchX : Nat
  ccwdX : Nat
  ccwdN : Nat
deriving DecidableEq, Repr

/-- The bits of a field, the least significant first: a field may be in pieces. -/
abbrev Places := List Nat

/-- Positions of v (3 bits) and t2, t1, t0 inside the 15 low bits of AUG (47_char_aug_bounds R336 `AugLayout`;
00_scope R6 makes them bit positions: log 3). -/
structure AugLayout where
  v  : Places
  t2 : Nat
  t1 : Nat
  t0 : Nat
deriving DecidableEq, Repr

/-- Positions of the fields of the bank jumps inside bits 41..0 (46_jumps R320 `BankJumpLayout`; 00_scope R6 makes
them bit positions: log 4): the suboperation digit (3 bits, 0 for 63.0 and 1 for 63.1), s, b (3 bits) and m (15 bits)
of 63.0, b and m of 63.1. `fill` gives the bits outside these fields in the word that BRTJ stores. -/
structure BankLayout where
  sub  : Places
  s    : Places
  b    : Places
  m    : Places
  b1   : Places
  m1   : Places
  fill : Word
deriving DecidableEq, Repr

/-- Two bit ranges have no bit in common. -/
def apart (lo width lo' width' : Nat) : Bool :=
  decide (lo + width ≤ lo' ∨ lo' + width' ≤ lo)

/-- The fields of each 74.x instruction lie inside bits 38..0 and are disjoint (R381). -/
def IoLayout.valid (l : IoLayout) : Bool :=
  decide (l.connX + 2 ≤ 39) && decide (l.connC + 12 ≤ 39) && decide (l.connN + 15 ≤ 39)
    && apart l.connX 2 l.connC 12 && apart l.connX 2 l.connN 15 && apart l.connC 12 l.connN 15
    && decide (l.extfX + 2 ≤ 39) && decide (l.extfC + 12 ≤ 39) && decide (l.extfN + 15 ≤ 39)
    && apart l.extfX 2 l.extfC 12 && apart l.extfX 2 l.extfN 15 && apart l.extfC 12 l.extfN 15
    && decide (l.begrX + 2 ≤ 39) && decide (l.begrM + 15 ≤ 39) && decide (l.begrN + 15 ≤ 39)
    && apart l.begrX 2 l.begrM 15 && apart l.begrX 2 l.begrN 15 && apart l.begrM 15 l.begrN 15
    && decide (l.begwX + 2 ≤ 39) && decide (l.begwM + 15 ≤ 39) && decide (l.begwN + 15 ≤ 39)
    && apart l.begwX 2 l.begwM 15 && apart l.begwX 2 l.begwN 15 && apart l.begwM 15 l.begwN 15
    && decide (l.copyX + 2 ≤ 39) && decide (l.clchX + 2 ≤ 39)
    && decide (l.ccwdX + 2 ≤ 39) && decide (l.ccwdN + 15 ≤ 39) && apart l.ccwdX 2 l.ccwdN 15

/-- The bits lie below `n` and no two of them are the same. -/
def Places.fit (l : Places) (n : Nat) : Bool := l.all (fun p => decide (p < n)) && decide l.Nodup

/-- v and the three t bits lie inside the 15 bits of y and are disjoint (R336). -/
def AugLayout.valid (l : AugLayout) : Bool :=
  decide (l.v.length = 3) && Places.fit (l.v ++ [l.t2, l.t1, l.t0]) 15

/-- The fields of the bank jumps have their widths, lie inside bits 41..0 and are disjoint (R320). -/
def BankLayout.valid (l : BankLayout) : Bool :=
  decide (l.sub.length = 3) && decide (1 ≤ l.s.length) && decide (l.b.length = 3) && decide (l.m.length = 15)
    && decide (l.b1.length = 3) && decide (l.m1.length = 15)
    && Places.fit (l.sub ++ (l.s ++ (l.b ++ l.m))) 42 && Places.fit (l.sub ++ (l.b1 ++ l.m1)) 42

/-- The three open instruction layouts together (U14). -/
structure Layouts where
  io   : IoLayout
  aug  : AugLayout
  bank : BankLayout
deriving DecidableEq, Repr

/-- All three layouts are inside their words with disjoint fields. -/
def Layouts.valid (l : Layouts) : Bool :=
  l.io.valid && l.aug.valid && l.bank.valid

/-- The named parameters of one installation (R4, R6). -/
structure Config where
  /-- `STORAGE_WORDS` is 16384 (otherwise 32768). -/
  storage16k          : Bool
  /-- `HAS_FPO`: the 3410 floating point option is installed. -/
  floatingOption      : Bool
  /-- `N_CHANNELS - 1`: channel x is installed when x is at most this. -/
  lastChannel         : BitVec 2
  /-- `INA_SETS_OVERFLOW` (R188). -/
  inaSetsOverflow     : Bool
  /-- `TYPEWRITER_CHANNEL` (R404). -/
  typewriterChannel   : BitVec 2
  /-- `TYPEWRITER_EQUIPMENT` (R404). -/
  typewriterEquipment : BitVec 3
  /-- `IoLayout`, `AugLayout`, `BankJumpLayout`. -/
  layouts             : Layouts
deriving DecidableEq, Repr

/-- The layouts of the machine after reset.  DESIGN CHOICE, unsafe (logs 2, 3, 4): the figures are lost and the spec
withholds its guess, so this packing is arbitrary. -/
def Layouts.atReset : Layouts where
  io := { connX := 0, connC := 2, connN := 14, extfX := 0, extfC := 2, extfN := 14,
          begrX := 0, begrM := 2, begrN := 17, begwX := 0, begwM := 2, begwN := 17,
          copyX := 0, clchX := 0, ccwdX := 0, ccwdN := 2 }
  aug := { v := [3, 4, 5], t2 := 2, t1 := 1, t0 := 0 }
  bank := { sub := List.range' 19 3, s := [18], b := List.range' 15 3, m := List.range 15,
            b1 := List.range' 15 3, m1 := List.range 15, fill := 0 }

/-- The installation after reset.  DESIGN CHOICE, unsafe (log 1): the spec leaves every parameter open. -/
def Config.atReset : Config where
  storage16k := false
  floatingOption := true
  lastChannel := 3
  inaSetsOverflow := true
  typewriterChannel := 0
  typewriterEquipment := 3
  layouts := Layouts.atReset

/-- Channel x exists in this installation (R4). -/
def Config.installed (c : Config) (x : BitVec 2) : Bool := x ≤ c.lastChannel

/-- The augment designators t2, t1, t0 (R45, R338). -/
structure AugT where
  t2 : Bool
  t1 : Bool
  t0 : Bool
deriving DecidableEq, Repr

/-- No augmentation: t = 000 (R45). -/
def AugT.zero : AugT := { t2 := false, t1 := false, t0 := false }

/-- A free bit, one for each value of the state's `draws` (U17, U18, U19, U20; DESIGN CHOICE, safe: log 12). -/
opaque Config.freeBit : Nat → Bool
/-- A free word, one for each value of `draws` (93 section 2, U16; DESIGN CHOICE, safe: log 12). -/
opaque Config.freeWord : Nat → Word

/-- `MulDivSignOfZero.product`: a zero product is negative zero (U8), from the signs of A and of the operand. -/
opaque Config.productZeroNegative : Bool → Bool → Bool
/-- `MulDivSignOfZero.quotient`: a zero quotient is negative zero (U8), from the signs of Q and of the operand. -/
opaque Config.quotientZeroNegative : Bool → Bool → Bool
/-- `MulDivSignOfZero.remainder`: a zero remainder is negative zero (U8, D15), from the signs of Q and of the operand.
-/
opaque Config.remainderZeroNegative : Bool → Bool → Bool
/-- `DivFaultResult`, the A part: from A, Q and the divisor (U9). -/
opaque Config.divFaultA : Word → Word → Word → Word
/-- `DivFaultResult`, the Q part (U9). -/
opaque Config.divFaultQ : Word → Word → Word → Word

/-- The three floating point algorithms (FSB is FAD of the complement, R222). -/
inductive FpOp where
  | add
  | mul
  | div
deriving DecidableEq, Repr

/-- A after an operation on an operand whose biased exponent is 0o1777 (U10). -/
opaque Config.fpOddA : FpOp → Word → Word → AugT → Word
/-- Q after an operation on an operand whose biased exponent is 0o1777 (U10). -/
opaque Config.fpOddQ : FpOp → Word → Word → AugT → Word
/-- Whether such an operation sets the exponent overflow bit (U10). -/
opaque Config.fpOddOverflow : FpOp → Word → Word → AugT → Bool
/-- Whether such an operation sets the exponent underflow bit (U10). -/
opaque Config.fpOddUnderflow : FpOp → Word → Word → AugT → Bool
/-- A as formed on an exponent overflow (U11). -/
opaque Config.fpOverflowA : FpOp → Word → Word → AugT → Word
/-- Q as formed on an exponent overflow (U11). -/
opaque Config.fpOverflowQ : FpOp → Word → Word → AugT → Word
/-- A after a floating point divide fault (U9). -/
opaque Config.fpDivFaultA : Word → Word → AugT → Word
/-- Q after a floating point divide fault (U9). -/
opaque Config.fpDivFaultQ : Word → Word → AugT → Word
/-- Whether FAD rounds where it may (R220 items 3 and 4 give no criterion). -/
opaque Config.fadRounds : Word → Word → AugT → Bool
/-- Whether FAD, when it rounds, adds +1 rather than -1 (R220 item 3). -/
opaque Config.fadRoundsUp : Word → Word → AugT → Bool
/-- Whether FAD with one zero coefficient gives the other operand normalized (R228, marked G there) rather than what
R220 items 1 and 2 give. -/
opaque Config.fadZeroGivesOther : Word → Word → AugT → Bool
/-- Whether the residue of a negative coefficient stands complemented in Q (R228 step G). -/
opaque Config.fadResidueComplemented : Word → Word → Bool
/-- The bits of Q below the residue of FAD (R228 step G). -/
opaque Config.fadResidueFill : Word → Word → Word
/-- Whether a zero sum of FAD is negative zero (R220 example, R228 step G). -/
opaque Config.fadZeroNegative : Word → Word → AugT → Bool
/-- Whether FDV develops a full 36-bit quotient when the dividend coefficient is below the divisor's (R228 step G). -/
opaque Config.fdvFullQuotient : Word → Word → Bool
/-- What a typewriter function code with both bit 0 and bit 1 selects (R405 states each bit alone). -/
opaque Config.typewriterBothSelect : Nat → Bool
/-- Whether selecting the typewriter's interrupt raises its signal at once when End of Line or Type Parity Error is
already up (R405 speaks of the occurrence only). -/
opaque Config.typewriterLateSignal : Nat → Bool
/-- The codes that are typed instead of the two frames of an output byte that a key or a failure of the typewriter's
logic has disturbed, none where a character is missed (R405, R406). -/
opaque Config.disturbedCodes : Nat → Option (BitVec 6) × Option (BitVec 6)

end Sys2Proof
end

