-- ==== Sys2Proof/Machine/Fields.lean ====
section
/-! DEFINITION. Bit fields of words, and the readers of the open instruction layouts. -/

namespace Sys2Proof

/-- `w[lo+len-1 : lo]` (R12). -/
def bits {n : Nat} (w : BitVec n) (lo len : Nat) : BitVec len := w.extractLsb' lo len

/-- `w[lo+k-1 : lo] <- v`, the other bits of w kept (R12). -/
def setBits {n k : Nat} (w : BitVec n) (lo : Nat) (v : BitVec k) : BitVec n :=
  (w &&& ~~~((BitVec.allOnes k).setWidth n <<< lo)) ||| (v.setWidth n <<< lo)

/-- The number whose binary digits stand at the places of w. -/
def gather {n : Nat} (w : BitVec n) (places : Places) : Nat :=
  match places with
  | [] => 0
  | p :: rest => (w.getLsbD p).toNat + 2 * gather w rest

/-- The binary digits of v put at the places of w, the other bits of w kept. -/
def scatter {n : Nat} (w : BitVec n) (places : Places) (v : Nat) : BitVec n :=
  match places with
  | [] => w
  | p :: rest => setBits (scatter w rest (v / 2)) p (BitVec.ofNat 1 v)

/-- The three bank jumps (R99, R320). -/
inductive BankKind where
  | ubjp
  | brtj
  | bjpl
deriving DecidableEq, Repr

/-- The suboperation digit of a bank jump (R99). -/
def bankSub (k : BankKind) : Nat :=
  match k with
  | .ubjp => 0
  | .brtj => 0
  | .bjpl => 1

/-- The bank jump that the layout recognises in a word with f = 63: 63.0 with s = 0 or 1, or 63.1 (R320).
The bits outside the fields of the layout do not count (DESIGN CHOICE, unsafe: log 4). -/
def bankKind (l : BankLayout) (w : Word) : Option BankKind :=
  if gather w l.sub = 1 then some .bjpl
  else if gather w l.sub = 0 then
    if gather w l.s = 0 then some .ubjp
    else if gather w l.s = 1 then some .brtj
    else none
  else none

/-- The places of b in a bank jump (R320). -/
def BankLayout.placesB (l : BankLayout) (k : BankKind) : Places :=
  match k with
  | .ubjp => l.b
  | .brtj => l.b
  | .bjpl => l.b1

/-- The places of m in a bank jump (R320). -/
def BankLayout.placesM (l : BankLayout) (k : BankKind) : Places :=
  match k with
  | .ubjp => l.m
  | .brtj => l.m
  | .bjpl => l.m1

/-- The designator s of a bank jump in its word; BJPL has none (R320). -/
def BankLayout.putS (l : BankLayout) (k : BankKind) (w : Word) : Word :=
  match k with
  | .ubjp => scatter w l.s 0
  | .brtj => scatter w l.s 1
  | .bjpl => w

/-- The word of a bank jump; for UBJP with b = 0 this is `mkUBJP` (R320). -/
def bankWord (l : BankLayout) (k : BankKind) (b : Desig) (m : Addr) : Word :=
  scatter (scatter (l.putS k (scatter (setBits l.fill 42 (0o63 : BitVec 6)) l.sub (bankSub k)))
    (l.placesB k) b.toNat) (l.placesM k) m.toNat

/-- The designator b of a bank jump word. -/
def bankB (l : BankLayout) (k : BankKind) (w : Word) : Desig := BitVec.ofNat 3 (gather w (l.placesB k))

/-- The address m of a bank jump word. -/
def bankM (l : BankLayout) (k : BankKind) (w : Word) : Addr := BitVec.ofNat 15 (gather w (l.placesM k))

/-- `BankJumpLayout.mkUBJP(m)` (R320). -/
def mkUbjp (l : BankLayout) (m : Addr) : Word := bankWord l .ubjp 0 m

/-- Bits 35..15 of a word with f = 63 are the fixed pattern of LDCH or STCH (R94, R104). -/
def characterPattern (w : Word) : Bool :=
  decide (bits w 18 18 = 0o000650) && (decide (bits w 15 3 = 0) || decide (bits w 15 3 = 5))

/-- The index designator v of an AUG (R336). -/
def augV (l : AugLayout) (y : Addr) : Desig := BitVec.ofNat 3 (gather y l.v)

/-- The index designator v written into the AUG in the upper half of a word (R336, R337). -/
def putAugV (l : AugLayout) (u : Word) (v : Desig) : Word := scatter u (l.v.map (24 + ·)) v.toNat

/-- The designators t2, t1, t0 of an AUG (R336). -/
def augBits (l : AugLayout) (y : Addr) : AugT where
  t2 := y.getLsbD l.t2
  t1 := y.getLsbD l.t1
  t0 := y.getLsbD l.t0

end Sys2Proof
end

