-- ==== Sys2Proof/Syntax.lean ====
section
/-! DEFINITION. The instructions of the Control Data 3400: one constructor for each row of spec/opcode_table.json.

Operands are the fields of the encoding: b and v designators, m an address, y an operand or code, k a shift count, c a
condition (f = 22, 23) or a 12-bit code (74.0, 74.1), x a channel, n a reject jump address (30_encoding R95). -/

namespace Sys2Proof

/-- What stands beside the code 74.7: it is recognised in a whole word and in a lower half (R102). -/
inductive Rest747 where
  | word (rest : BitVec 39)
  | half (rest : BitVec 15)
deriving DecidableEq, Repr

inductive Instr where
  /-- `IAQ`, rule R151 of 41_transmission.md. -/
  | iaq
  /-- `ATI`, rule R167 of 41_transmission.md. -/
  | ati (b : Desig)
  /-- `ILLEGAL_00`, rule R100 of 30_encoding.md. -/
  | illegal00 (rest : BitVec 18)
  /-- `ARS`, rule R253 of 44_logical_shift.md. -/
  | ars (b : Desig) (k : Addr)
  /-- `QRS`, rule R254 of 44_logical_shift.md. -/
  | qrs (b : Desig) (k : Addr)
  /-- `LRS`, rule R255 of 44_logical_shift.md. -/
  | lrs (b : Desig) (k : Addr)
  /-- `ENQ`, rule R164 of 41_transmission.md. -/
  | enq (b : Desig) (y : Addr)
  /-- `ALS`, rule R256 of 44_logical_shift.md. -/
  | als (b : Desig) (k : Addr)
  /-- `QLS`, rule R257 of 44_logical_shift.md. -/
  | qls (b : Desig) (k : Addr)
  /-- `LLS`, rule R258 of 44_logical_shift.md. -/
  | lls (b : Desig) (k : Addr)
  /-- `ENA`, rule R165 of 41_transmission.md. -/
  | ena (b : Desig) (y : Addr)
  /-- `INA`, rule R188 of 42_arithmetic.md. -/
  | ina (b : Desig) (y : Addr)
  /-- `LDA`, rule R152 of 41_transmission.md. -/
  | lda (b : Desig) (m : Addr)
  /-- `LAC`, rule R153 of 41_transmission.md. -/
  | lac (b : Desig) (m : Addr)
  /-- `ADD`, rule R184 of 42_arithmetic.md. -/
  | add (b : Desig) (m : Addr)
  /-- `SUB`, rule R185 of 42_arithmetic.md. -/
  | sub (b : Desig) (m : Addr)
  /-- `LDQ`, rule R154 of 41_transmission.md. -/
  | ldq (b : Desig) (m : Addr)
  /-- `LQC`, rule R155 of 41_transmission.md. -/
  | lqc (b : Desig) (m : Addr)
  /-- `STA`, rule R156 of 41_transmission.md. -/
  | sta (b : Desig) (m : Addr)
  /-- `STQ`, rule R157 of 41_transmission.md. -/
  | stq (b : Desig) (m : Addr)
  /-- `AJP`, rule R303 of 46_jumps.md. -/
  | ajp (c : BitVec 2) (m : Addr)
  /-- `ARJ`, rule R315 of 46_jumps.md. -/
  | arj (c : BitVec 2) (m : Addr)
  /-- `QJP`, rule R304 of 46_jumps.md. -/
  | qjp (c : BitVec 2) (m : Addr)
  /-- `QRJ`, rule R316 of 46_jumps.md. -/
  | qrj (c : BitVec 2) (m : Addr)
  /-- `MUI`, rule R186 of 42_arithmetic.md. -/
  | mui (b : Desig) (m : Addr)
  /-- `DVI`, rule R187 of 42_arithmetic.md. -/
  | dvi (b : Desig) (m : Addr)
  /-- `ILLEGAL_26`, rule R102 of 30_encoding.md. -/
  | illegal26 (rest : BitVec 18)
  /-- `ILLEGAL_27`, rule R102 of 30_encoding.md. -/
  | illegal27 (rest : BitVec 18)
  /-- `FAD`, rule R220 of 43_floating.md. -/
  | fad (b : Desig) (m : Addr)
  /-- `FSB`, rule R222 of 43_floating.md. -/
  | fsb (b : Desig) (m : Addr)
  /-- `FMU`, rule R224 of 43_floating.md. -/
  | fmu (b : Desig) (m : Addr)
  /-- `FDV`, rule R226 of 43_floating.md. -/
  | fdv (b : Desig) (m : Addr)
  /-- `SCA`, rule R261 of 44_logical_shift.md. -/
  | sca (b : Desig) (k : Addr)
  /-- `SCQ`, rule R262 of 44_logical_shift.md. -/
  | scq (b : Desig) (k : Addr)
  /-- `SSK`, rule R275 of 45_replace_test_search.md. -/
  | ssk (b : Desig) (m : Addr)
  /-- `SSH`, rule R276 of 45_replace_test_search.md. -/
  | ssh (b : Desig) (m : Addr)
  /-- `SST`, rule R241 of 44_logical_shift.md. -/
  | sst (b : Desig) (m : Addr)
  /-- `SCL`, rule R242 of 44_logical_shift.md. -/
  | scl (b : Desig) (m : Addr)
  /-- `SCM`, rule R243 of 44_logical_shift.md. -/
  | scm (b : Desig) (m : Addr)
  /-- `SSU`, rule R244 of 44_logical_shift.md. -/
  | ssu (b : Desig) (m : Addr)
  /-- `LDL`, rule R245 of 44_logical_shift.md. -/
  | ldl (b : Desig) (m : Addr)
  /-- `ADL`, rule R246 of 44_logical_shift.md. -/
  | adl (b : Desig) (m : Addr)
  /-- `SBL`, rule R247 of 44_logical_shift.md. -/
  | sbl (b : Desig) (m : Addr)
  /-- `STL`, rule R248 of 44_logical_shift.md. -/
  | stl (b : Desig) (m : Addr)
  /-- `ENI`, rule R166 of 41_transmission.md. -/
  | eni (b : Desig) (y : Addr)
  /-- `INI`, rule R189 of 42_arithmetic.md. -/
  | ini (b : Desig) (y : Addr)
  /-- `LIU`, rule R158 of 41_transmission.md. -/
  | liu (b : Desig) (m : Addr)
  /-- `LIL`, rule R159 of 41_transmission.md. -/
  | lil (b : Desig) (m : Addr)
  /-- `ISK`, rule R190 of 42_arithmetic.md. -/
  | isk (b : Desig) (y : Addr)
  /-- `IJP`, rule R305 of 46_jumps.md. -/
  | ijp (b : Desig) (m : Addr)
  /-- `SIU`, rule R160 of 41_transmission.md. -/
  | siu (b : Desig) (m : Addr)
  /-- `SIL`, rule R161 of 41_transmission.md. -/
  | sil (b : Desig) (m : Addr)
  /-- `SAU`, rule R162 of 41_transmission.md. -/
  | sau (b : Desig) (m : Addr)
  /-- `SAL`, rule R163 of 41_transmission.md. -/
  | sal (b : Desig) (m : Addr)
  /-- `ILLEGAL_62`, rule R102 of 30_encoding.md. -/
  | illegal62 (rest : BitVec 18)
  /-- `LDCH`, rule R333 of 47_char_aug_bounds.md. -/
  | ldch (b v : Desig) (m : Addr)
  /-- `STCH`, rule R334 of 47_char_aug_bounds.md. -/
  | stch (b v : Desig) (m : Addr)
  /-- `UBJP`, rule R321 of 46_jumps.md. -/
  | ubjp (b : Desig) (m : Addr)
  /-- `BRTJ`, rule R322 of 46_jumps.md. -/
  | brtj (b : Desig) (m : Addr)
  /-- `BJPL`, rule R323 of 46_jumps.md. -/
  | bjpl (b : Desig) (m : Addr)
  /-- `ILLEGAL_63`, rule R104 of 30_encoding.md. -/
  | illegal63 (rest : BitVec 42)
  /-- `EQS`, rule R282 of 45_replace_test_search.md. -/
  | eqs (b : Desig) (m : Addr)
  /-- `THS`, rule R283 of 45_replace_test_search.md. -/
  | ths (b : Desig) (m : Addr)
  /-- `MEQ`, rule R284 of 45_replace_test_search.md. -/
  | meq (b : Desig) (m : Addr)
  /-- `MTH`, rule R285 of 45_replace_test_search.md. -/
  | mth (b : Desig) (m : Addr)
  /-- `RAD`, rule R271 of 45_replace_test_search.md. -/
  | rad (b : Desig) (m : Addr)
  /-- `RSB`, rule R272 of 45_replace_test_search.md. -/
  | rsb (b : Desig) (m : Addr)
  /-- `RAO`, rule R273 of 45_replace_test_search.md. -/
  | rao (b : Desig) (m : Addr)
  /-- `RSO`, rule R274 of 45_replace_test_search.md. -/
  | rso (b : Desig) (m : Addr)
  /-- `CONN`, rule R386 of 49_io.md. -/
  | conn (x : BitVec 2) (c : BitVec 12) (n : Addr)
  /-- `EXTF`, rule R387 of 49_io.md. -/
  | extf (x : BitVec 2) (c : BitVec 12) (n : Addr)
  /-- `BEGR`, rule R388 of 49_io.md. -/
  | begr (x : BitVec 2) (m n : Addr)
  /-- `BEGW`, rule R389 of 49_io.md. -/
  | begw (x : BitVec 2) (m n : Addr)
  /-- `COPY`, rule R390 of 49_io.md. -/
  | copy (x : BitVec 2)
  /-- `CLCH`, rule R391 of 49_io.md. -/
  | clch (x : BitVec 2)
  /-- `CCWD`, rule R392 of 49_io.md. -/
  | ccwd (x : BitVec 2) (n : Addr)
  /-- `ILLEGAL_74_7`, rule R102 of 30_encoding.md. -/
  | illegal747 (rest : Rest747)
  /-- `SLJ`, rule R306 of 46_jumps.md. -/
  | slj (m : Addr)
  /-- `SJ1`, rule R306 of 46_jumps.md. -/
  | sj1 (m : Addr)
  /-- `SJ2`, rule R306 of 46_jumps.md. -/
  | sj2 (m : Addr)
  /-- `SJ3`, rule R306 of 46_jumps.md. -/
  | sj3 (m : Addr)
  /-- `RTJ`, rule R317 of 46_jumps.md. -/
  | rtj (m : Addr)
  /-- `RJ1`, rule R317 of 46_jumps.md. -/
  | rj1 (m : Addr)
  /-- `RJ2`, rule R317 of 46_jumps.md. -/
  | rj2 (m : Addr)
  /-- `RJ3`, rule R317 of 46_jumps.md. -/
  | rj3 (m : Addr)
  /-- `SLS`, rule R310 of 46_jumps.md. -/
  | sls (m : Addr)
  /-- `SS1`, rule R310 of 46_jumps.md. -/
  | ss1 (m : Addr)
  /-- `SS2`, rule R310 of 46_jumps.md. -/
  | ss2 (m : Addr)
  /-- `SS3`, rule R310 of 46_jumps.md. -/
  | ss3 (m : Addr)
  /-- `SRJ`, rule R318 of 46_jumps.md. -/
  | srj (m : Addr)
  /-- `SR1`, rule R318 of 46_jumps.md. -/
  | sr1 (m : Addr)
  /-- `SR2`, rule R318 of 46_jumps.md. -/
  | sr2 (m : Addr)
  /-- `SR3`, rule R318 of 46_jumps.md. -/
  | sr3 (m : Addr)
  /-- `INF`, rule R350 of 48_internal.md. -/
  | inf (y : Addr)
  /-- `AUG`, rule R337 of 47_char_aug_bounds.md. -/
  | aug (y : Addr)
  /-- `CIS`, rule R370 of 48_internal.md. -/
  | cis
  /-- `CMS`, rule R371 of 48_internal.md. -/
  | cms
  /-- `SEN`, rule R367 of 48_internal.md. -/
  | sen (y : Addr)
  /-- `CPR`, rule R372 of 48_internal.md. -/
  | cpr
  /-- `EUB`, rule R342 of 47_char_aug_bounds.md. -/
  | eub (y : Addr)
  /-- `ELB`, rule R343 of 47_char_aug_bounds.md. -/
  | elb (y : Addr)
  /-- `UNDEFINED_77_2`, rule R111 of 30_encoding.md. -/
  | undefined772 (y : Addr)
  /-- `UNDEFINED_77_4`, rule R111 of 30_encoding.md. -/
  | undefined774 (y : Addr)
  /-- `ILLEGAL_77_7`, rule R102 of 30_encoding.md. -/
  | illegal777 (y : Addr)
deriving DecidableEq, Repr

end Sys2Proof
end

