-- ==== Sys2Proof/WellFormed.lean ====
section
/-! DEFINITION. Which terms of `Instr` are instructions of the machine: the terms that some word decodes to. -/

namespace Sys2Proof

/-- The 18 low bits are those of IAQ or of ATI with b = 1 to 6 (R100). -/
def legal00 (rest : BitVec 18) : Bool :=
  decide (rest = 0o700554) ||
    (decide (bits rest 3 15 = 0o74054) && decide (bits rest 0 3 ≠ 0) && decide (bits rest 0 3 ≠ 7))

/-- A word with f = 63 that is neither LDCH, STCH nor a bank jump (R102, R104). -/
def illegal63Word (l : BankLayout) (w : Word) : Bool :=
  !characterPattern w && (bankKind l w).isNone

/-- Well-formed instructions for a choice of the open layouts. -/
def Instr.wf (l : Layouts) (i : Instr) : Bool :=
  match i with
  | .ati b => decide (b ≠ 0) && decide (b ≠ 7)
  | .illegal00 rest => !legal00 rest
  | .illegal63 rest => illegal63Word l.bank ((0o63 : BitVec 6) ++ rest)
  | .ubjp b m => !characterPattern (bankWord l.bank .ubjp b m)
  | .brtj b m => !characterPattern (bankWord l.bank .brtj b m)
  | .bjpl b m => !characterPattern (bankWord l.bank .bjpl b m)
  | .undefined772 y => decide (y ≠ 0) && decide (y ≠ 1)
  | .undefined774 y => decide (y ≠ 0)
  | .iaq | .ars _ _ | .qrs _ _ | .lrs _ _ | .enq _ _ | .als _ _ | .qls _ _ | .lls _ _ | .ena _ _ | .ina _ _
  | .lda _ _ | .lac _ _ | .add _ _ | .sub _ _ | .ldq _ _ | .lqc _ _ | .sta _ _ | .stq _ _ => true
  | .ajp _ _ | .arj _ _ | .qjp _ _ | .qrj _ _ => true
  | .mui _ _ | .dvi _ _ | .illegal26 _ | .illegal27 _ | .fad _ _ | .fsb _ _ | .fmu _ _ | .fdv _ _ => true
  | .sca _ _ | .scq _ _ | .ssk _ _ | .ssh _ _ | .sst _ _ | .scl _ _ | .scm _ _ | .ssu _ _ | .ldl _ _ | .adl _ _
  | .sbl _ _ | .stl _ _ => true
  | .eni _ _ | .ini _ _ | .liu _ _ | .lil _ _ | .isk _ _ | .ijp _ _ | .siu _ _ | .sil _ _ | .sau _ _ | .sal _ _
  | .illegal62 _ => true
  | .ldch _ _ _ | .stch _ _ _ => true
  | .eqs _ _ | .ths _ _ | .meq _ _ | .mth _ _ | .rad _ _ | .rsb _ _ | .rao _ _ | .rso _ _ => true
  | .conn _ _ _ | .extf _ _ _ | .begr _ _ _ | .begw _ _ _ | .copy _ | .clch _ | .ccwd _ _ | .illegal747 _ => true
  | .slj _ | .sj1 _ | .sj2 _ | .sj3 _ | .rtj _ | .rj1 _ | .rj2 _ | .rj3 _ => true
  | .sls _ | .ss1 _ | .ss2 _ | .ss3 _ | .srj _ | .sr1 _ | .sr2 _ | .sr3 _ => true
  | .inf _ | .aug _ | .cis | .cms | .sen _ | .cpr | .eub _ | .elb _ | .illegal777 _ => true

end Sys2Proof
end

