-- ==== Sys2Proof/Decode.lean ====
section
/-! DEFINITION. Decoding of a program step and the encoder written from the same tables (30_encoding R91 to R104). -/

namespace Sys2Proof

/-- Why the decoder gives no instruction. -/
inductive DecodeRefusal where
  /-- f = 63 or 74.0 to 74.6 in the lower half, or the lower half of a 48-bit code: no meaning is given (R112, U5). -/
  | fortyEightBitCodeInLowerHalf
deriving DecidableEq, Repr

/-- What the decoder answers. -/
inductive Decoded where
  | instr   (i : Instr)
  | refused (r : DecodeRefusal)
deriving DecidableEq, Repr

/-- f = 00: exactly seven patterns are legal (R100). -/
def decode00 (rest : BitVec 18) : Instr :=
  if rest = 0o700554 then .iaq
  else if legal00 rest then .ati (bits rest 0 3)
  else .illegal00 rest

/-- f = 75: the selective jumps, by the designator j (R101). -/
def decode75 (j : Desig) (m : Addr) : Instr :=
  match j.toNat with
  | 0 => .slj m
  | 1 => .sj1 m
  | 2 => .sj2 m
  | 3 => .sj3 m
  | 4 => .rtj m
  | 5 => .rj1 m
  | 6 => .rj2 m
  | _ => .rj3 m

/-- f = 76: the selective stops, by the designator j (R101). -/
def decode76 (j : Desig) (m : Addr) : Instr :=
  match j.toNat with
  | 0 => .sls m
  | 1 => .ss1 m
  | 2 => .ss2 m
  | 3 => .ss3 m
  | 4 => .srj m
  | 5 => .sr1 m
  | 6 => .sr2 m
  | _ => .sr3 m

/-- f = 77: Class II, by the third function digit (R92, R99). -/
def decode77 (s : Desig) (y : Addr) : Instr :=
  match s.toNat with
  | 0 => .inf y
  | 1 => .aug y
  | 2 => if y = 0 then .cis else if y = 1 then .cms else .undefined772 y
  | 3 => .sen y
  | 4 => if y = 0 then .cpr else .undefined774 y
  | 5 => .eub y
  | 6 => .elb y
  | _ => .illegal777 y

/-- f = 74 in a 24-bit instruction: 74.7 is illegal in both halves (R102, R442), 74.0 to 74.6 have no meaning in the
lower half (R112, U5). -/
def decode74Half (s : Desig) (y : Addr) : Decoded :=
  if s = 7 then .instr (.illegal747 (.half y)) else .refused .fortyEightBitCodeInLowerHalf

/-- A 24-bit instruction (R91, R98 to R101). -/
def decode24 (w : HalfWord) : Decoded :=
  match (bits w 18 6).toNat with
  | 0o00 => .instr (decode00 (bits w 0 18))
  | 0o01 => .instr (.ars (bits w 15 3) (bits w 0 15))
  | 0o02 => .instr (.qrs (bits w 15 3) (bits w 0 15))
  | 0o03 => .instr (.lrs (bits w 15 3) (bits w 0 15))
  | 0o04 => .instr (.enq (bits w 15 3) (bits w 0 15))
  | 0o05 => .instr (.als (bits w 15 3) (bits w 0 15))
  | 0o06 => .instr (.qls (bits w 15 3) (bits w 0 15))
  | 0o07 => .instr (.lls (bits w 15 3) (bits w 0 15))
  | 0o10 => .instr (.ena (bits w 15 3) (bits w 0 15))
  | 0o11 => .instr (.ina (bits w 15 3) (bits w 0 15))
  | 0o12 => .instr (.lda (bits w 15 3) (bits w 0 15))
  | 0o13 => .instr (.lac (bits w 15 3) (bits w 0 15))
  | 0o14 => .instr (.add (bits w 15 3) (bits w 0 15))
  | 0o15 => .instr (.sub (bits w 15 3) (bits w 0 15))
  | 0o16 => .instr (.ldq (bits w 15 3) (bits w 0 15))
  | 0o17 => .instr (.lqc (bits w 15 3) (bits w 0 15))
  | 0o20 => .instr (.sta (bits w 15 3) (bits w 0 15))
  | 0o21 => .instr (.stq (bits w 15 3) (bits w 0 15))
  | 0o22 => .instr (if w.getLsbD 17 then .arj (bits w 15 2) (bits w 0 15) else .ajp (bits w 15 2) (bits w 0 15))
  | 0o23 => .instr (if w.getLsbD 17 then .qrj (bits w 15 2) (bits w 0 15) else .qjp (bits w 15 2) (bits w 0 15))
  | 0o24 => .instr (.mui (bits w 15 3) (bits w 0 15))
  | 0o25 => .instr (.dvi (bits w 15 3) (bits w 0 15))
  | 0o26 => .instr (.illegal26 (bits w 0 18))
  | 0o27 => .instr (.illegal27 (bits w 0 18))
  | 0o30 => .instr (.fad (bits w 15 3) (bits w 0 15))
  | 0o31 => .instr (.fsb (bits w 15 3) (bits w 0 15))
  | 0o32 => .instr (.fmu (bits w 15 3) (bits w 0 15))
  | 0o33 => .instr (.fdv (bits w 15 3) (bits w 0 15))
  | 0o34 => .instr (.sca (bits w 15 3) (bits w 0 15))
  | 0o35 => .instr (.scq (bits w 15 3) (bits w 0 15))
  | 0o36 => .instr (.ssk (bits w 15 3) (bits w 0 15))
  | 0o37 => .instr (.ssh (bits w 15 3) (bits w 0 15))
  | 0o40 => .instr (.sst (bits w 15 3) (bits w 0 15))
  | 0o41 => .instr (.scl (bits w 15 3) (bits w 0 15))
  | 0o42 => .instr (.scm (bits w 15 3) (bits w 0 15))
  | 0o43 => .instr (.ssu (bits w 15 3) (bits w 0 15))
  | 0o44 => .instr (.ldl (bits w 15 3) (bits w 0 15))
  | 0o45 => .instr (.adl (bits w 15 3) (bits w 0 15))
  | 0o46 => .instr (.sbl (bits w 15 3) (bits w 0 15))
  | 0o47 => .instr (.stl (bits w 15 3) (bits w 0 15))
  | 0o50 => .instr (.eni (bits w 15 3) (bits w 0 15))
  | 0o51 => .instr (.ini (bits w 15 3) (bits w 0 15))
  | 0o52 => .instr (.liu (bits w 15 3) (bits w 0 15))
  | 0o53 => .instr (.lil (bits w 15 3) (bits w 0 15))
  | 0o54 => .instr (.isk (bits w 15 3) (bits w 0 15))
  | 0o55 => .instr (.ijp (bits w 15 3) (bits w 0 15))
  | 0o56 => .instr (.siu (bits w 15 3) (bits w 0 15))
  | 0o57 => .instr (.sil (bits w 15 3) (bits w 0 15))
  | 0o60 => .instr (.sau (bits w 15 3) (bits w 0 15))
  | 0o61 => .instr (.sal (bits w 15 3) (bits w 0 15))
  | 0o62 => .instr (.illegal62 (bits w 0 18))
  | 0o63 => .refused .fortyEightBitCodeInLowerHalf
  | 0o64 => .instr (.eqs (bits w 15 3) (bits w 0 15))
  | 0o65 => .instr (.ths (bits w 15 3) (bits w 0 15))
  | 0o66 => .instr (.meq (bits w 15 3) (bits w 0 15))
  | 0o67 => .instr (.mth (bits w 15 3) (bits w 0 15))
  | 0o70 => .instr (.rad (bits w 15 3) (bits w 0 15))
  | 0o71 => .instr (.rsb (bits w 15 3) (bits w 0 15))
  | 0o72 => .instr (.rao (bits w 15 3) (bits w 0 15))
  | 0o73 => .instr (.rso (bits w 15 3) (bits w 0 15))
  | 0o74 => decode74Half (bits w 15 3) (bits w 0 15)
  | 0o75 => .instr (decode75 (bits w 15 3) (bits w 0 15))
  | 0o76 => .instr (decode76 (bits w 15 3) (bits w 0 15))
  | _ => .instr (decode77 (bits w 15 3) (bits w 0 15))

/-- f = 63 in the upper half: LDCH and STCH first, then the bank jumps, else illegal (R104). -/
def decode63 (l : BankLayout) (w : Word) : Instr :=
  if characterPattern w then
    if bits w 15 3 = 0 then .ldch (bits w 39 3) (bits w 36 3) (bits w 0 15)
    else .stch (bits w 39 3) (bits w 36 3) (bits w 0 15)
  else
    match bankKind l w with
    | some .ubjp => .ubjp (bankB l .ubjp w) (bankM l .ubjp w)
    | some .brtj => .brtj (bankB l .brtj w) (bankM l .brtj w)
    | some .bjpl => .bjpl (bankB l .bjpl w) (bankM l .bjpl w)
    | none => .illegal63 (bits w 0 42)

/-- f = 74 in the upper half, by the third function digit in bits 41..39 (R93, R381). -/
def decode74 (l : IoLayout) (w : Word) : Instr :=
  match (bits w 39 3).toNat with
  | 0 => .conn (bits w l.connX 2) (bits w l.connC 12) (bits w l.connN 15)
  | 1 => .extf (bits w l.extfX 2) (bits w l.extfC 12) (bits w l.extfN 15)
  | 2 => .begr (bits w l.begrX 2) (bits w l.begrM 15) (bits w l.begrN 15)
  | 3 => .begw (bits w l.begwX 2) (bits w l.begwM 15) (bits w l.begwN 15)
  | 4 => .copy (bits w l.copyX 2)
  | 5 => .clch (bits w l.clchX 2)
  | 6 => .ccwd (bits w l.ccwdX 2) (bits w l.ccwdN 15)
  | _ => .illegal747 (.word (bits w 0 39))

/-- The upper half of a word holds the function code of a 48-bit instruction (R97 item 1). -/
def isFortyEightBit (u : Word) : Bool :=
  decide (bits u 42 6 = 0o63) || decide (bits u 42 6 = 0o74)

/-- The lower half of the word has no meaning as an instruction: the word is one 48-bit code, and not LDCH or STCH,
whose lower half is an ENI (R97, R112). So it is for an illegal word too, f = 63 or 74.7 (DEDUCED, safe: log 27). -/
def noLowerInstruction (u : Word) : Bool :=
  isFortyEightBit u && !(decide (bits u 42 6 = 0o63) && characterPattern u)

/-- The 24 bits of a word in one position (R70 item 1). -/
def halfOf (u : Word) (h : Half) : HalfWord :=
  match h with
  | .upper => bits u 24 24
  | .lower => bits u 0 24

/-- The instruction at one position of a program step (R97). -/
def decode (l : Layouts) (h : Half) (u : Word) : Decoded :=
  if h = .upper && isFortyEightBit u then
    if bits u 42 6 = 0o63 then .instr (decode63 l.bank u) else .instr (decode74 l.io u)
  else if h = .lower && noLowerInstruction u then .refused .fortyEightBitCodeInLowerHalf
  else decode24 (halfOf u h)

/-- The bits of an encoded instruction: one half word or a whole word (R90). -/
inductive Encoded where
  | half (w : HalfWord)
  | full (w : Word)
deriving DecidableEq, Repr

/-- Class I and II: `f * 2^18 + b * 2^15 + m` (R91, R92, R119). -/
def classI (f : Nat) (b : Desig) (m : Addr) : Encoded :=
  .half ((BitVec.ofNat 6 f ++ b : BitVec 9) ++ m)

/-- A 24-bit pattern with an 18-bit rest (R100, R102). -/
def wide (f : Nat) (rest : BitVec 18) : Encoded :=
  .half (BitVec.ofNat 6 f ++ rest)

/-- f = 22, 23: j is the return bit followed by the condition (R101). -/
def conditional (f : Nat) (ret : Bool) (c : BitVec 2) (m : Addr) : Encoded :=
  classI f (BitVec.ofBool ret ++ c) m

/-- A 74.s word with nothing in its low 39 bits (R93). -/
def class74 (s : Nat) : Word :=
  (BitVec.ofNat 6 0o74 ++ BitVec.ofNat 3 s : BitVec 9) ++ (0 : BitVec 39)

/-- LDCH and STCH (R94). -/
def characterWord (b v : Desig) (third : Nat) (m : Addr) : Word :=
  setBits (setBits (setBits (setBits (setBits (setBits (0 : Word) 42 (BitVec.ofNat 6 0o63)) 39 b) 36 v)
    18 (BitVec.ofNat 18 0o000650)) 15 (BitVec.ofNat 3 third)) 0 m

/-- The words of an instruction, for a choice of the open layouts. -/
def encode (l : Layouts) (i : Instr) : Encoded :=
  match i with
  | .iaq => wide 0o00 0o700554
  | .ati b => wide 0o00 ((0o74054 : BitVec 15) ++ b)
  | .illegal00 rest => wide 0o00 rest
  | .illegal26 rest => wide 0o26 rest
  | .illegal27 rest => wide 0o27 rest
  | .illegal62 rest => wide 0o62 rest
  | .ars b m => classI 0o01 b m
  | .qrs b m => classI 0o02 b m
  | .lrs b m => classI 0o03 b m
  | .enq b m => classI 0o04 b m
  | .als b m => classI 0o05 b m
  | .qls b m => classI 0o06 b m
  | .lls b m => classI 0o07 b m
  | .ena b m => classI 0o10 b m
  | .ina b m => classI 0o11 b m
  | .lda b m => classI 0o12 b m
  | .lac b m => classI 0o13 b m
  | .add b m => classI 0o14 b m
  | .sub b m => classI 0o15 b m
  | .ldq b m => classI 0o16 b m
  | .lqc b m => classI 0o17 b m
  | .sta b m => classI 0o20 b m
  | .stq b m => classI 0o21 b m
  | .mui b m => classI 0o24 b m
  | .dvi b m => classI 0o25 b m
  | .fad b m => classI 0o30 b m
  | .fsb b m => classI 0o31 b m
  | .fmu b m => classI 0o32 b m
  | .fdv b m => classI 0o33 b m
  | .sca b m => classI 0o34 b m
  | .scq b m => classI 0o35 b m
  | .ssk b m => classI 0o36 b m
  | .ssh b m => classI 0o37 b m
  | .sst b m => classI 0o40 b m
  | .scl b m => classI 0o41 b m
  | .scm b m => classI 0o42 b m
  | .ssu b m => classI 0o43 b m
  | .ldl b m => classI 0o44 b m
  | .adl b m => classI 0o45 b m
  | .sbl b m => classI 0o46 b m
  | .stl b m => classI 0o47 b m
  | .eni b m => classI 0o50 b m
  | .ini b m => classI 0o51 b m
  | .liu b m => classI 0o52 b m
  | .lil b m => classI 0o53 b m
  | .isk b m => classI 0o54 b m
  | .ijp b m => classI 0o55 b m
  | .siu b m => classI 0o56 b m
  | .sil b m => classI 0o57 b m
  | .sau b m => classI 0o60 b m
  | .sal b m => classI 0o61 b m
  | .eqs b m => classI 0o64 b m
  | .ths b m => classI 0o65 b m
  | .meq b m => classI 0o66 b m
  | .mth b m => classI 0o67 b m
  | .rad b m => classI 0o70 b m
  | .rsb b m => classI 0o71 b m
  | .rao b m => classI 0o72 b m
  | .rso b m => classI 0o73 b m
  | .ajp c m => conditional 0o22 false c m
  | .arj c m => conditional 0o22 true c m
  | .qjp c m => conditional 0o23 false c m
  | .qrj c m => conditional 0o23 true c m
  | .slj m => classI 0o75 0 m
  | .sj1 m => classI 0o75 1 m
  | .sj2 m => classI 0o75 2 m
  | .sj3 m => classI 0o75 3 m
  | .rtj m => classI 0o75 4 m
  | .rj1 m => classI 0o75 5 m
  | .rj2 m => classI 0o75 6 m
  | .rj3 m => classI 0o75 7 m
  | .sls m => classI 0o76 0 m
  | .ss1 m => classI 0o76 1 m
  | .ss2 m => classI 0o76 2 m
  | .ss3 m => classI 0o76 3 m
  | .srj m => classI 0o76 4 m
  | .sr1 m => classI 0o76 5 m
  | .sr2 m => classI 0o76 6 m
  | .sr3 m => classI 0o76 7 m
  | .inf y => classI 0o77 0 y
  | .aug y => classI 0o77 1 y
  | .cis => classI 0o77 2 0
  | .cms => classI 0o77 2 1
  | .undefined772 y => classI 0o77 2 y
  | .sen y => classI 0o77 3 y
  | .cpr => classI 0o77 4 0
  | .undefined774 y => classI 0o77 4 y
  | .eub y => classI 0o77 5 y
  | .elb y => classI 0o77 6 y
  | .illegal777 y => classI 0o77 7 y
  | .ldch b v m => .full (characterWord b v 0 m)
  | .stch b v m => .full (characterWord b v 5 m)
  | .ubjp b m => .full (bankWord l.bank .ubjp b m)
  | .brtj b m => .full (bankWord l.bank .brtj b m)
  | .bjpl b m => .full (bankWord l.bank .bjpl b m)
  | .illegal63 rest => .full ((0o63 : BitVec 6) ++ rest)
  | .conn x c n => .full (setBits (setBits (setBits (class74 0) l.io.connX x) l.io.connC c) l.io.connN n)
  | .extf x c n => .full (setBits (setBits (setBits (class74 1) l.io.extfX x) l.io.extfC c) l.io.extfN n)
  | .begr x m n => .full (setBits (setBits (setBits (class74 2) l.io.begrX x) l.io.begrM m) l.io.begrN n)
  | .begw x m n => .full (setBits (setBits (setBits (class74 3) l.io.begwX x) l.io.begwM m) l.io.begwN n)
  | .copy x => .full (setBits (class74 4) l.io.copyX x)
  | .clch x => .full (setBits (class74 5) l.io.clchX x)
  | .ccwd x n => .full (setBits (setBits (class74 6) l.io.ccwdX x) l.io.ccwdN n)
  | .illegal747 (.word rest) => .full ((BitVec.ofNat 6 0o74 ++ BitVec.ofNat 3 7 : BitVec 9) ++ rest)
  | .illegal747 (.half rest) => classI 0o74 7 rest

/-- What the decoder answers for encoded bits: a half word stands in either position (R91), a whole word is a program
step (R93). -/
def decodeEncoded (l : Layouts) (e : Encoded) : Decoded :=
  match e with
  | .half w => decode24 w
  | .full w => decode l .upper w

/-- A storage word that holds the instruction whose bits are w: a 24-bit one in the upper half over a lower half of
zeros, a 48-bit one as the whole word. -/
def tableWord (nbits w : Nat) : Word :=
  if nbits ≤ 24 then BitVec.ofNat 24 w ++ (0 : BitVec 24) else BitVec.ofNat 48 w

/-- The instruction the decoder reads from the bits w of a row of the opcode table, under the layouts after reset. -/
def decodeTableWord (nbits w : Nat) : Option Instr :=
  match decode Layouts.atReset .upper (tableWord nbits w) with
  | .instr i => some i
  | .refused _ => none

end Sys2Proof
end

