-- ==== Sys2Proof/Machine/Arith.lean ====
section
/-! DEFINITION. Numbers: one's complement addition, signed values, shifts and comparisons (41 R168, 42 R180 to R187,
44 R253 to R258, 45 R283). -/

namespace Sys2Proof.Machine

/-- One's complement sum of n bits in a subtractive adder: end-around carry, and an all-ones result only from two
all-ones operands (R130, R180). -/
def onesAdd {n : Nat} (a b : BitVec n) : BitVec n :=
  let s := a.toNat + b.toNat
  let s := if s ≥ 2 ^ n then s - (2 ^ n - 1) else s
  if s = 2 ^ n - 1 ∧ ¬ (a = BitVec.allOnes n ∧ b = BitVec.allOnes n) then 0 else BitVec.ofNat n s

/-- The 48-bit adder (R180). -/
def add48 (a b : Word) : Word := onesAdd a b

/-- The 15-bit address adder (R130). -/
def add15 (a b : Addr) : Addr := onesAdd a b

/-- Subtraction adds the complement (R181). -/
def sub48 (a m : Word) : Word := add48 a (~~~m)

/-- A 15-bit operand with its sign extended (R168). -/
def sext15 (x : Addr) : Word := x.signExtend 48

/-- The magnitude of a word (R168). -/
def mag48 (x : Word) : Word := if x.msb then ~~~x else x

/-- The integer that a one's complement pattern stands for (R12, R183). -/
def onesValue {n : Nat} (x : BitVec n) : Int :=
  if x.msb then - ((~~~x).toNat : Int) else (x.toNat : Int)

/-- The one's complement pattern of an integer; zero is positive zero (R186). -/
def onesEncode (n : Nat) (v : Int) : BitVec n :=
  if v < 0 then ~~~(BitVec.ofNat n (-v).toNat) else BitVec.ofNat n v.toNat

/-- The pattern of an integer with zero taken negative on request (R186, R187). -/
def onesEncodeSigned (n : Nat) (v : Int) (negativeZero : Bool) : BitVec n :=
  if v = 0 ∧ negativeZero = true then BitVec.allOnes n else onesEncode n v

/-- Right shift, end-off with sign extension (R252, R253, R255). -/
def sar {n : Nat} (x : BitVec n) (k : Nat) : BitVec n := x.sshiftRight k

/-- Left shift, end-around (R252, R256, R258). -/
def rotl {n : Nat} (x : BitVec n) (k : Nat) : BitVec n := x.rotateLeft k

/-- `gt48`: the order of signed values with negative zero just below positive zero (R283). -/
def gt48 (x a : Word) : Bool := decide ((x ^^^ BitVec.intMin 48).toNat > (a ^^^ BitVec.intMin 48).toNat)

/-- Positive or negative zero (R302). -/
def isZero48 (x : Word) : Bool := decide (x = plus0) || decide (x = minus0)

/-- The condition c of f = 22 and 23 on a register (R302). -/
def condition (c : BitVec 2) (x : Word) : Bool :=
  match c.toNat with
  | 0 => isZero48 x
  | 1 => !isZero48 x
  | 2 => !x.msb
  | _ => x.msb

end Sys2Proof.Machine
end

