-- ==== Sys2Proof/Machine/State.lean ====
section
/-! DEFINITION. The state of the machine, the reasons a step can stop, and the machine after reset (10_state).

State is plain data.  INVENTORY.md lists every field with its rule and its reset value. -/

namespace Sys2Proof.Machine

/-- The six index registers (R24). -/
structure IndexFile where
  b1 : Addr
  b2 : Addr
  b3 : Addr
  b4 : Addr
  b5 : Addr
  b6 : Addr
deriving DecidableEq, Repr

/-- Direction of a channel's operation (R40 `ChDir`). -/
inductive Direction where
  | read
  | write
deriving DecidableEq, Repr

/-- A connected equipment and unit (R40 `ChConn`, R382). -/
structure Connection where
  equipment : BitVec 3
  unit      : BitVec 9
deriving DecidableEq, Repr

/-- One 3406 data channel (R40). -/
structure Channel where
  active   : Bool
  dir      : Direction
  addr     : Addr
  count    : Addr
  conn     : Option Connection
  parErr   : Bool
  lines    : BitVec 8
  status   : BitVec 12
  /-- The partly assembled or disassembled word. -/
  assembly : Word
  /-- Bytes received of the word being assembled, or bytes still to send of the word being disassembled. -/
  held     : BitVec 3
  /-- The Reverse Assembly signal of the word being assembled (R398). -/
  reverse  : Bool
  /-- The registers were stepped when the output word was read from storage (R394, D33). -/
  stepped  : Bool
  /-- The channel is active and transfers nothing: it has stopped after a selected data parity error (R419, U18), or the
  Function of its Auto-Load was not replied to (R402, D39). -/
  halted   : Bool
deriving DecidableEq, Repr

/-- The four channels; channel x is used only when the configuration has it (R4). -/
structure ChannelBank where
  c0 : Channel
  c1 : Channel
  c2 : Channel
  c3 : Channel
deriving DecidableEq, Repr

/-- What a code does on the typewriter (Table 7-3, R408). -/
inductive Typed where
  | char (c : Char)
  | space
  | backspace
  | tab
  | carriageReturn
  | upperCase
  | lowerCase
  /-- 00, 65 and 67: nothing is typed. -/
  | nothing
  /-- A letter code in upper case: the typewriter spaces. -/
  | spaced
  /-- The glyph is lost or damaged in the source (N12). -/
  | unknown
deriving DecidableEq, Repr

/-- One code carried out by the typewriter: what it does in the case the typewriter is in, whether it is typed in the
end character location of the line (R405), and whether a key gave it. -/
structure Stroke where
  code   : BitVec 6
  does   : Typed
  atEnd  : Bool
  keyed  : Bool
deriving DecidableEq, Repr

/-- The 731 typewriter (R404 to R407). -/
structure Typewriter where
  /-- A transmission parity error in a Connect code has occurred and has not been cleared (R405, R419 case 2). -/
  connLocked  : Bool
  /-- A transmission parity error in a Function code or in input data has not been cleared (R419 cases 1 e and 4 c). -/
  uncleared   : Bool
  /-- The operation of its channel was begun with such an error uncleared: the typewriter takes no part in it (R419). -/
  opLocked    : Bool
  /-- Interrupt On Abnormal Operation is selected. -/
  intSelected : Bool
  /-- The interrupt signal on line N. -/
  intSignal   : Bool
  busy        : Bool
  upper       : Bool
  endOfLine   : Bool
  typeParity  : Bool
  /-- A key was struck during output, or the typewriter's logic has failed, and the next output byte is not yet typed
  (R405, R406). -/
  disturbed   : Bool
  /-- The codes carried out, oldest first (R406, R407). -/
  typed       : List Stroke
deriving DecidableEq, Repr

/-- The Breakpoint Address Selector (R474). -/
inductive BreakSelect where
  | off
  | operand
  | instruction
  | either
deriving DecidableEq, Repr

/-- The console and maintenance panel switches (R41). -/
structure Console where
  jump1           : Bool
  jump2           : Bool
  jump3           : Bool
  stop1           : Bool
  stop2           : Bool
  stop3           : Bool
  maintenance     : Bool
  stepMode        : Bool
  sweepMode       : Bool
  enterMode       : Bool
  disableAdvanceP : Bool
  testMode        : Bool
  extendedTest    : Bool
  breakAddress    : Addr
  breakSelect     : BreakSelect
  selectQ         : Bool
  autoChannel     : BitVec 2
  autoConnect     : BitVec 12
  autoFunction    : BitVec 12
  typewriterOn    : Bool
deriving DecidableEq, Repr

/-- What an equipment answers to a Connect or Function code (R395); `parity` is a transmission parity error in the code
(R419 cases 1 and 2). -/
inductive Answer where
  | reply
  | reject
  | noResponse
  | parity
deriving DecidableEq, Repr

/-- An event of a channel, an equipment, the time source or the Manual Interrupt switch.  Such an event may fall between
any two storage references of the program (R79, R396). -/
inductive Async where
  /-- A 12-bit byte arrives from the equipment on channel x; `bad` is a parity error, `halt` the choice of U18. -/
  | byteIn (x : BitVec 2) (byte : BitVec 12) (reversed bad halt : Bool)
  /-- Channel x takes its next output word from storage; `stepNow` is the choice of D33. -/
  | wordOut (x : BitVec 2) (stepNow : Bool)
  /-- The equipment on channel x replies to the next output byte. -/
  | byteOut (x : BitVec 2) (bad halt : Bool)
  /-- End of Record on channel x (R397). -/
  | endOfRecord (x : BitVec 2)
  /-- Equipment e of channel x raises or drops its interrupt line (R401). -/
  | line (x : BitVec 2) (e : BitVec 3) (level : Bool)
  /-- The connected equipment of channel x changes its status lines (R395). -/
  | status (x : BitVec 2) (v : BitVec 12)
  /-- The time source ticks (R462). -/
  | tick
  /-- The Manual Interrupt switch is pressed (R460). -/
  | manualInterrupt
  /-- The environment predicate `ParityBad` changes at one address (R39). -/
  | parity (addr : Addr) (bad : Bool)
  /-- A failure of storage leaves other data bits at one address, with bad parity (R417, D30). -/
  | corrupt (addr : Addr) (w : Word)
  /-- A typewriter key is struck (R407); `bad` is a parity error in sending its code, `halt` the choice of U18. -/
  | key (code : BitVec 6) (bad halt : Bool)
  /-- The typewriter's End of Record switch (R407). -/
  | typewriterEndOfRecord
  /-- The typewriter reaches the right margin (R405). -/
  | typewriterEndOfLine
  /-- A parity error in the typewriter logic, before the output byte that it spoils (R405). -/
  | typewriterTypeParity
  /-- The typewriter has finished what it was doing and is no longer busy (R405). -/
  | typewriterReady
deriving DecidableEq, Repr

/-- How far the instruction in execution has come (R133, R281). -/
inductive Progress where
  /-- No instruction is begun. -/
  | idle
  /-- An indirect level has given this designator and address. -/
  | indirect (b : Desig) (m : Addr)
  /-- A search has done an iteration and goes on. -/
  | search
deriving DecidableEq, Repr

/-- The registers that the push buttons of the maintenance panel set and clear (R470). -/
inductive PanelRegister where
  | a
  | q
  | u
  | p
  | b (n : Desig)
deriving DecidableEq, Repr

/-- Who moves next: the program, an event, or the operator (00_scope R10). -/
inductive Move where
  /-- The computation section takes its turn. -/
  | compute
  | event (e : Async)
  /-- The switches of the console and the panel are set. -/
  | setSwitches (c : Console)
  | go
  /-- Steps 1, 3 and 5 of a Test Mode cycle: master clear, Go pulse, stop (R476). -/
  | testClear
  | testGo
  | testStop
  | stop
  | restart
  | autoLoad
  | internalClear
  | externalClear
  | systemActive (on : Bool)
  | panelWrite (r : PanelRegister) (v : Word)
deriving DecidableEq, Repr

/-- The machine.  Fields of the spec first, the model's own fields last. -/
structure State where
  config      : Config
  a           : Word
  q           : Word
  index       : IndexFile
  p           : Addr
  u           : Word
  half        : Half
  needRni     : Bool
  running     : Bool
  slsStopped  : Bool
  augPending  : Bool
  augT        : AugT
  /-- The flip-flops of the Interrupt register: bits 1 to 5, 10 to 13 and 42 to 46 (R29). -/
  irff        : Word
  mask        : Word
  intActive   : Bool
  mode1       : Bool
  mode2       : Bool
  mode3       : Bool
  exit1       : Half
  exit2       : Half
  exit3       : Half
  lockout     : Bool
  bl          : BitVec 8
  bu          : BitVec 8
  memory      : List Host.Cell
  badParity   : List Addr
  channels    : ChannelBank
  typewriter  : Typewriter
  console     : Console
  systemActive : Bool
  /-- The program waits on CCWD for this channel (R392). -/
  ccwdWait    : Option (BitVec 2)
  /-- Auto-Load waits for this channel to go inactive (R402). -/
  autoLoad    : Option (BitVec 2)
  /-- A fixed word whose upper instruction was executed without a jump (U19). -/
  passedExit  : Option Addr
  /-- The computer stops at the end of this instruction: a breakpoint matched, or Stop or System Active Off came in the
  middle of it (R471, R474, R484). -/
  stopRequest : Bool
  /-- Restart came in the middle of an instruction and is carried out at its end (R483). -/
  restartRequest : Bool
  /-- In Step Mode the computer stops when the next word is in U: an Internal Master Clear has been performed since the
  last word was read, or CCWD has ended its wait (R473). -/
  stopAfterRead : Bool
  /-- How far the instruction in execution has come. -/
  progress    : Progress
  /-- A bank jump whose designator and address came from an indirect word, kept as local values (R134). -/
  resumed     : Option Instr
  /-- The answers that equipments will give, first one next; an empty list answers nothing (R395). -/
  answers     : List Answer
  /-- The moves to come, first one next; with none left the program moves (R10). -/
  moves       : List Move
  /-- For each coming storage reference of the program, the events just before it (R79). -/
  slots       : List (List Async)
  /-- How many free values have been drawn. -/
  draws       : Nat
deriving DecidableEq, Repr

/-- The reasons a step has no successor. -/
inductive Fault where
  /-- Raised by every storage reference to an address with bit 14 set on a 16,384-word system (U1, D4).  Safe: the spec
  gives it no meaning. -/
  | noSuchStorage
  /-- Raised when the lower instruction has f = 63 or 74.0 to 74.6, or is the lower half of a 48-bit code other than LDCH
  and STCH (U5, R112).  Safe: the spec gives it no meaning. -/
  | fortyEightBitCodeInLowerHalf
  /-- Raised by INF with a code that is in no row of its table (U6).  Safe: the spec gives it no meaning. -/
  | undefinedInternalFunction
  /-- Raised by SEN in the upper half with a code that is in no row of its table (U6).  Safe. -/
  | undefinedSense
  /-- Raised by 77.2 with a code other than those of CIS and CMS (U6).  Safe. -/
  | undefinedCopyCode
  /-- Raised by 77.4 with a code other than that of CPR (U6).  Safe. -/
  | undefinedProductCode
  /-- Raised by LDCH and STCH with v = 7 (U12).  Safe. -/
  | characterRegisterSeven
  /-- Raised by a 74.0 to 74.6 instruction, an INF select or Auto-Load that names a channel the system lacks (U13).
  Safe. -/
  | channelNotInstalled
deriving DecidableEq, Repr

/-- The reasons the model gives an instruction no meaning. -/
inductive Refusal where
  /-- An arm of `exec` whose instruction has no meaning yet.  Safe.  No arm raises it. -/
  | notModelled (mnemonic : String)
deriving DecidableEq, Repr

/-- A channel after an External Master Clear (R481). -/
def Channel.reset : Channel where
  active := false
  dir := .read
  addr := 0
  count := 0
  conn := none
  parErr := false
  lines := 0
  status := 0
  assembly := 0
  held := 0
  reverse := false
  stepped := false
  halted := false

/-- The typewriter after an External Master Clear (R405). -/
def Typewriter.reset : Typewriter where
  connLocked := false
  uncleared := false
  opLocked := false
  intSelected := false
  intSignal := false
  busy := false
  upper := false
  endOfLine := false
  typeParity := false
  disturbed := false
  typed := []

/-- Every switch off, the typewriter on.  DESIGN CHOICE, unsafe (log 10). -/
def Console.reset : Console where
  jump1 := false
  jump2 := false
  jump3 := false
  stop1 := false
  stop2 := false
  stop3 := false
  maintenance := false
  stepMode := false
  sweepMode := false
  enterMode := false
  disableAdvanceP := false
  testMode := false
  extendedTest := false
  breakAddress := 0
  breakSelect := .off
  selectQ := false
  autoChannel := 0
  autoConnect := 0
  autoFunction := 0
  typewriterOn := true

/-- The machine after Power On MC (R482, R58).  The values the spec leaves unspecified are DESIGN CHOICE, unsafe
(logs 1 to 12, 33). -/
def State.reset : State where
  config := Config.atReset
  a := 0
  q := 0
  index := { b1 := 0, b2 := 0, b3 := 0, b4 := 0, b5 := 0, b6 := 0 }
  p := 0
  u := 0
  half := .upper
  needRni := true
  running := false
  slsStopped := false
  augPending := false
  augT := AugT.zero
  irff := 0
  mask := 0
  intActive := false
  mode1 := false
  mode2 := false
  mode3 := false
  exit1 := .upper
  exit2 := .upper
  exit3 := .upper
  lockout := false
  bl := 0
  bu := 0
  memory := []
  badParity := []
  channels := { c0 := Channel.reset, c1 := Channel.reset, c2 := Channel.reset, c3 := Channel.reset }
  typewriter := Typewriter.reset
  console := Console.reset
  systemActive := true
  ccwdWait := none
  autoLoad := none
  passedExit := none
  stopRequest := false
  restartRequest := false
  stopAfterRead := true
  progress := .idle
  resumed := none
  answers := []
  moves := []
  slots := []
  draws := 0

end Sys2Proof.Machine
end

