-- ==== Sys2Proof/Machine/Registers.lean ====
section
/-! DEFINITION. Reading and writing the numbered registers, the channels and the interrupt registers (10_state). -/

namespace Sys2Proof.Machine

/-- The contents of index register b; there is no register 0 or 7, which read as zero (R24, R136). -/
def IndexFile.get (f : IndexFile) (b : Desig) : Addr :=
  match b.toNat with
  | 1 => f.b1
  | 2 => f.b2
  | 3 => f.b3
  | 4 => f.b4
  | 5 => f.b5
  | 6 => f.b6
  | _ => 0

/-- Index register b written; a write to 0 or 7 is discarded (R24, R136). -/
def IndexFile.set (f : IndexFile) (b : Desig) (v : Addr) : IndexFile :=
  match b.toNat with
  | 1 => { f with b1 := v }
  | 2 => { f with b2 := v }
  | 3 => { f with b3 := v }
  | 4 => { f with b4 := v }
  | 5 => { f with b5 := v }
  | 6 => { f with b6 := v }
  | _ => f

/-- Channel x (R40). -/
def ChannelBank.get (f : ChannelBank) (x : BitVec 2) : Channel :=
  match x.toNat with
  | 0 => f.c0
  | 1 => f.c1
  | 2 => f.c2
  | _ => f.c3

/-- Channel x replaced. -/
def ChannelBank.set (f : ChannelBank) (x : BitVec 2) (c : Channel) : ChannelBank :=
  match x.toNat with
  | 0 => { f with c0 := c }
  | 1 => { f with c1 := c }
  | 2 => { f with c2 := c }
  | _ => { f with c3 := c }

/-- Channel x of the machine. -/
def State.channel (s : State) (x : BitVec 2) : Channel := s.channels.get x

/-- Channel x of the machine replaced. -/
def State.setChannel (s : State) (x : BitVec 2) (c : Channel) : State :=
  { s with channels := s.channels.set x c }

/-- Channel x exists (R4). -/
def State.installed (s : State) (x : BitVec 2) : Bool := s.config.installed x

/-- Some installed channel is active (R471). -/
def State.anyActive (s : State) : Bool :=
  (s.installed 0 && s.channels.c0.active) || (s.installed 1 && s.channels.c1.active)
    || (s.installed 2 && s.channels.c2.active) || (s.installed 3 && s.channels.c3.active)

/-- `ChIntLines[x]`: the lines of the equipments, with the typewriter's on line N of its channel (R401, R405).
The typewriter's line stays as it is while the typewriter is switched off (DESIGN CHOICE, unsafe: log 37). -/
def State.lines (s : State) (x : BitVec 2) : BitVec 8 :=
  if x = s.config.typewriterChannel && s.typewriter.intSignal then
    (s.channel x).lines ||| BitVec.twoPow 8 s.config.typewriterEquipment.toNat
  else (s.channel x).lines

/-- Bit i of a 48-bit register. -/
def bit48 (i : Nat) : Word := BitVec.twoPow 48 i

/-- The bits of the Interrupt register that are flip-flops (Table 4-1, R29). -/
def flipFlopBits : Word :=
  bit48 1 ||| bit48 2 ||| bit48 3 ||| bit48 4 ||| bit48 5 ||| bit48 10 ||| bit48 11 ||| bit48 12 ||| bit48 13
    ||| bit48 42 ||| bit48 43 ||| bit48 44 ||| bit48 45 ||| bit48 46

/-- The bits that the channels drive (R29: 20 to 23 and 30 to 33). -/
def channelBits : Word :=
  bit48 20 ||| bit48 21 ||| bit48 22 ||| bit48 23 ||| bit48 30 ||| bit48 31 ||| bit48 32 ||| bit48 33

/-- The assigned bits of IR, MASK and PROD (Table 4-1). -/
def assignedBits : Word := flipFlopBits ||| channelBits

/-- The two bits of IR that channel x drives (R401, R419). -/
def State.channelIr (s : State) (x : BitVec 2) : Word :=
  if s.installed x then
    (if (s.channel x).parErr then bit48 (20 + x.toNat) else 0) ||| (if s.lines x ≠ 0 then bit48 (30 + x.toNat) else 0)
  else 0

/-- The Interrupt register as it reads: flip-flops, channel bits, and 0 where no bit is assigned (R29, R370). -/
def State.ir (s : State) : Word :=
  (s.irff &&& flipFlopBits) ||| s.channelIr 0 ||| s.channelIr 1 ||| s.channelIr 2 ||| s.channelIr 3

/-- The Interrupt Mask register as it reads (R30, R371). -/
def State.maskView (s : State) : Word := s.mask &&& assignedBits

/-- The Product register (R31). -/
def State.prod (s : State) : Word := s.ir &&& s.maskView

/-- Bit i of MASK. -/
def State.selected (s : State) (i : Nat) : Bool := s.maskView.getLsbD i

/-- `IR[i] <- 1`. -/
def State.setIr (s : State) (i : Nat) : State := { s with irff := s.irff ||| bit48 i }

/-- `IR[i] <- 0`. -/
def State.clearIr (s : State) (i : Nat) : State := { s with irff := s.irff &&& ~~~(bit48 i) }

/-- `IR[i] <- 1` on a condition. -/
def State.setIrIf (s : State) (i : Nat) (c : Bool) : State := if c then s.setIr i else s

/-- `MASK[i] <- 1`. -/
def State.setMask (s : State) (i : Nat) : State := { s with mask := s.mask ||| bit48 i }

/-- `MASK[i] <- 0`. -/
def State.clearMask (s : State) (i : Nat) : State := { s with mask := s.mask &&& ~~~(bit48 i) }

/-- A free bit, and the state in which the next draw is another one (log 12). -/
def State.drawBit (s : State) : Bool × State := (Config.freeBit s.draws, { s with draws := s.draws + 1 })

/-- A free word (log 12). -/
def State.drawWord (s : State) : Word × State := (Config.freeWord s.draws, { s with draws := s.draws + 1 })

/-- `IR[i]` takes a free value (U17, 93 section 2). -/
def State.freeIr (s : State) (i : Nat) : State :=
  if s.drawBit.1 then s.drawBit.2.setIr i else s.drawBit.2.clearIr i

/-- The three categories of interrupts (R430). -/
inductive Category where
  | one
  | two
  | three
deriving DecidableEq, Repr

/-- The fixed word of a category at an address: 00007, 00020, and 00030 to 00033 without the floating point option
(R77, R445). -/
def State.fixedWord (s : State) (a : Addr) : Option Category :=
  if a = 0o00007 then some .one
  else if a = 0o00020 then some .three
  else if !s.config.floatingOption && decide (bits a 2 13 = 0o6) then some .two
  else none

/-- `Mode_c` (R33). -/
def State.mode (s : State) (c : Category) : Bool :=
  match c with
  | .one => s.mode1
  | .two => s.mode2
  | .three => s.mode3

/-- `Mode_c <- 0` (R445). -/
def State.clearMode (s : State) (c : Category) : State :=
  match c with
  | .one => { s with mode1 := false }
  | .two => { s with mode2 := false }
  | .three => { s with mode3 := false }

/-- `Exit_c` (R34). -/
def State.exit (s : State) (c : Category) : Half :=
  match c with
  | .one => s.exit1
  | .two => s.exit2
  | .three => s.exit3

/-- `Exit_c <- h` (R352). -/
def State.setExit (s : State) (c : Category) (h : Half) : State :=
  match c with
  | .one => { s with exit1 := h }
  | .two => { s with exit2 := h }
  | .three => { s with exit3 := h }

/-- A Category I interrupt is due (R432). -/
def State.cat1Ready (s : State) : Bool := s.intActive && !s.mode1 && decide (s.prod ≠ 0)

/-- Bounds checking is in effect (R72). -/
def State.boundsOn (s : State) : Bool := s.intActive && s.selected 42 && !s.mode1 && !s.mode2 && !s.mode3

/-- `InBounds(S)` (R73). -/
def State.inBounds (s : State) (a : Addr) : Bool :=
  decide (s.bl ≤ bits a 7 8) && (decide (s.bu = 0) || decide (bits a 7 8 < s.bu))

/-- A checked reference to the address is a bounds violation (R74). -/
def State.outOfBounds (s : State) (a : Addr) : Bool := s.boundsOn && !s.inBounds a

/-- INF and 74.0 to 74.6 are illegal (R443). -/
def State.locked (s : State) : Bool := s.lockout && s.intActive && !s.mode1

/-- The storage word exists (R38, R64). -/
def State.hasWord (s : State) (a : Addr) : Bool := !(s.config.storage16k && a.msb)

/-- `(B^b)` for a register b. -/
def State.b (s : State) (b : Desig) : Addr := s.index.get b

/-- `B[b] <- v`. -/
def State.setB (s : State) (b : Desig) (v : Addr) : State := { s with index := s.index.set b v }

end Sys2Proof.Machine
end

