-- ==== Sys2Proof/Machine/Flags.lean ====
section
/-! DEFINITION. The fault bits an instruction sets: IR bits 1 to 5 (10_state R43, 60_exceptions R463).  They are only
ever set by an instruction, never cleared. -/

namespace Sys2Proof.Machine

/-- `ovf(a, b)`: the exact sum of two 48-bit integers has magnitude 2^47 or more (R182). -/
def overflow48 (a b : Word) : Bool := decide ((onesValue a + onesValue b).natAbs ≥ 2 ^ 47)

/-- The shift fault, IR bit 1 (R250). -/
def State.shiftFault (s : State) : State := s.setIr 1

/-- The divide fault, IR bit 2 (R187, R216). -/
def State.divideFault (s : State) (c : Bool) : State := s.setIrIf 2 c

/-- The arithmetic overflow fault, IR bit 3 (R182). -/
def State.overflowFault (s : State) (c : Bool) : State := s.setIrIf 3 c

/-- The exponent overflow fault, IR bit 4 (R214). -/
def State.exponentOverflow (s : State) (c : Bool) : State := s.setIrIf 4 c

/-- The exponent underflow fault, IR bit 5 (R215). -/
def State.exponentUnderflow (s : State) (c : Bool) : State := s.setIrIf 5 c

/-- `A <- add48(A, x)` with its overflow fault (R180, R182). -/
def State.addToA (s : State) (x : Word) : State :=
  { s.overflowFault (overflow48 s.a x) with a := add48 s.a x }

end Sys2Proof.Machine
end

