-- ==== Sys2Proof/Machine/Memory.lean ====
section
/-! DEFINITION. Core storage (20_memory R60, R66 to R70).

Word a is the six cells 6 a to 6 a + 5, the most significant byte first: the machine addresses no byte, so this layout
is the model's own (DESIGN CHOICE, safe: log 6).  A memory lists only the bytes that differ from what an unlisted byte
reads as, with rising addresses, so equal memories are equal lists. -/

namespace Sys2Proof.Machine

/-- A memory: listed cells, by rising address. -/
abbrev Memory := List Host.Cell

/-- What an unlisted byte reads as.  DESIGN CHOICE, unsafe (log 6): the spec gives storage no contents at power on. -/
def Memory.unlisted : Byte := 0

/-- The number of cells: six for each of the 2^15 words. -/
def Memory.cells : Nat := 6 * 2 ^ 15

/-- The byte at a cell. -/
def Memory.byte (mem : Memory) (a : Nat) : Byte :=
  match mem with
  | [] => Memory.unlisted
  | (k, v) :: rest => if a = k then v else Memory.byte rest a

/-- One byte written; writing the unlisted value removes the entry. -/
def Memory.put (mem : Memory) (a : Nat) (v : Byte) : Memory :=
  match mem with
  | [] => if v = Memory.unlisted then [] else [(a, v)]
  | (k, w) :: rest =>
    if a < k then (if v = Memory.unlisted then (k, w) :: rest else (a, v) :: (k, w) :: rest)
    else if a = k then (if v = Memory.unlisted then rest else (a, v) :: rest)
    else (k, w) :: Memory.put rest a v

/-- The entries start at an address at or above `low`. -/
def Memory.startsAt (mem : Memory) (low : Nat) : Bool :=
  match mem with
  | [] => true
  | (k, _) :: _ => decide (low ≤ k)

/-- The canonical form: rising addresses inside storage, no entry equal to the unlisted value. -/
def Memory.wf (mem : Memory) : Bool :=
  match mem with
  | [] => true
  | (k, v) :: rest =>
    decide (v ≠ Memory.unlisted) && decide (k < Memory.cells) && Memory.startsAt rest (k + 1) && Memory.wf rest

/-- The 48 data bits of a word (R66). -/
def Memory.word (mem : Memory) (a : Addr) : Word :=
  Memory.byte mem (6 * a.toNat) ++ Memory.byte mem (6 * a.toNat + 1) ++ Memory.byte mem (6 * a.toNat + 2)
    ++ Memory.byte mem (6 * a.toNat + 3) ++ Memory.byte mem (6 * a.toNat + 4) ++ Memory.byte mem (6 * a.toNat + 5)

/-- A whole word stored (R67). -/
def Memory.setWord (mem : Memory) (a : Addr) (w : Word) : Memory :=
  Memory.put (Memory.put (Memory.put (Memory.put (Memory.put (Memory.put mem
    (6 * a.toNat) (bits w 40 8)) (6 * a.toNat + 1) (bits w 32 8)) (6 * a.toNat + 2) (bits w 24 8))
    (6 * a.toNat + 3) (bits w 16 8)) (6 * a.toNat + 4) (bits w 8 8)) (6 * a.toNat + 5) (bits w 0 8)

/-- Part of a word stored, its other bits kept (R68). -/
def Memory.setField {k : Nat} (mem : Memory) (a : Addr) (lo : Nat) (v : BitVec k) : Memory :=
  Memory.setWord mem a (setBits (Memory.word mem a) lo v)

end Sys2Proof.Machine
end

