-- ==== Sys2Proof/Machine/Ops.lean ====
section
/-! DEFINITION. What ends an instruction: the advance to the next one, a transfer of control with the exit from an
interrupt routine, and the entry to an interrupt of each category (40_sequencing R122 to R127, 60_exceptions R436 to
R445). -/

namespace Sys2Proof.Machine

/-- The outcome of an instruction or of a move. -/
abbrev Result := Host.Outcome State Fault Refusal

/-- The end of an instruction: the augment is used up (R45), a stopped SLS is forgotten (R46), and a stop that was asked
for in the middle of it stops the computer (R128, R474). -/
def State.finish (s : State) : State :=
  { s with augPending := false, augT := AugT.zero, slsStopped := false,
           running := s.running && !s.stopRequest, stopRequest := false, progress := .idle, resumed := none }

/-- A word left behind is no longer a passed fixed word (U19). -/
def State.leave (s : State) : Option Addr := if s.passedExit = some s.p then none else s.passedExit

/-- The address after P, unless Disable Advance P is on (R125, R475). -/
def State.nextP (s : State) : Addr := if s.console.disableAdvanceP then s.p else s.p + 1

/-- Sequential advance: `P <- (P + 1) mod 2^15; Half <- upper; NeedRNI <- true` (R125). -/
def State.advance (s : State) : State :=
  { s.finish with p := s.nextP, half := .upper, needRni := true, passedExit := s.leave }

/-- CCWD ends its wait on a channel. In Step Mode the computer then stops when the next word has been read, unless it
is asked to stop before (R473 case 1, after a 48-bit instruction; R392). -/
def State.endWait (s : State) : State :=
  { ({ s with ccwdWait := none } : State).advance with
    stopAfterRead := s.stopAfterRead || (s.console.stepMode && s.running && !s.stopRequest) }

/-- The fixed word whose upper instruction is passed without a jump is remembered (U19). -/
def State.pass (s : State) : Option Addr := if (s.fixedWord s.p).isSome then some s.p else s.passedExit

/-- The end of a 24-bit instruction that neither jumps nor skips (R122). -/
def State.next24 (s : State) : State :=
  match s.half with
  | .upper => { s.finish with half := .lower, passedExit := s.pass }
  | .lower => s.advance

/-- `skip`: an upper instruction omits the lower one, a lower one cannot skip (R126, R127). -/
def State.skipIf (s : State) (c : Bool) : State := if c then s.advance else s.next24

/-- Control goes to a half of the word at t (R124). -/
def State.land (s : State) (t : Addr) (h : Half) : State :=
  { s.finish with p := t, half := h, needRni := true, passedExit := s.leave }

/-- The exit of category c: land at `Exit_c` and leave the interrupt mode (R445). -/
def State.exitLanding (s : State) (c : Category) (t : Addr) : State := (s.land t (s.exit c)).clearMode c

/-- A jump out of a fixed word outside the entry-then-jump pattern: the landing half and the clearing of the mode are
free (U19). -/
def State.freeLanding (s : State) (c : Category) (t : Addr) (own : Half) : State :=
  let landed := s.drawBit.2.drawBit.2.land t (if s.drawBit.1 then s.exit c else own)
  if s.drawBit.2.drawBit.1 then landed.clearMode c else landed

/-- Transfer of control, with the exit from an interrupt routine when it leaves a fixed word (R124, R445).  `plain` says
that the instruction is a 24-bit normal jump; `own` is the half on which the jump lands by itself. -/
def State.transfer (s : State) (plain : Bool) (t : Addr) (own : Half) : State :=
  match s.fixedWord s.p with
  | none => s.land t own
  | some c =>
    match s.half with
    | .upper => if plain && s.mode c then s.exitLanding c t else s.freeLanding c t own
    | .lower => if s.passedExit = some s.p then s.freeLanding c t own else s.land t own

/-- The word at a fixed location is read as an instruction: a parity error stops the computer unless its interrupt is
taken next (R418, R436, R450). -/
def State.entryParity (s : State) (f : Addr) : State :=
  if f ∈ s.badParity then
    if s.intActive && s.selected 46 && !s.mode1 then s.setIr 46 else { s.setIr 46 with running := false }
  else s

/-- The second half of the return jump to the fixed word f: its lower instruction is next, from U (R436, R440, R442). -/
def State.arrive (s : State) (f : Addr) : State :=
  { s.finish with
    p := f, half := .lower, u := Memory.word s.memory f, needRni := false, stopAfterRead := false,
    passedExit := if s.passedExit = some f then none else s.passedExit }

/-- The state of an interrupt entry at the fixed word f: `ret` in its upper address, its lower instruction next, from U
(R436, R440, R442). -/
def State.entered (s : State) (f ret : Addr) : State :=
  ({ s with memory := Memory.setField s.memory f 24 ret } : State).arrive f

/-- The return jump of an interrupt entry as one indivisible operation, with the parity of the fixed word (R436, R418). -/
def State.enter (s : State) (f ret : Addr) : State := (s.entered f ret).entryParity f

/-- Where an interrupted instruction resumes: an augmented one at its AUG (R438, D43). -/
def State.resumeHalf (s : State) : Half := if s.augPending then .upper else s.half

/-- `Cat1Entry(Pn, Hn)` (R436). -/
def State.cat1Entry (s : State) (pn : Addr) (hn : Half) : State :=
  ({ s with mode1 := true, exit1 := hn } : State).enter 0o00007 pn

/-- One level of indirect addressing ends, or one iteration of a search: the instruction goes on at the next step (R133,
R448 points P5 and P6). -/
def State.again (s : State) (g : Progress) : State := { s with slsStopped := false, progress := g }

end Sys2Proof.Machine
end

