-- ==== Sys2Proof/Machine/Typewriter.lean ====
section
/-! DEFINITION. The 731 typewriter: connection, functions, status, typing, the code table (49_io R404 to R408). -/

namespace Sys2Proof.Machine

/-- The code c names the typewriter's equipment number (R405: bits 11..9 of the Connect code). -/
def State.typewriterNamed (s : State) (x : BitVec 2) (c : BitVec 12) : Bool :=
  decide (x = s.config.typewriterChannel) && decide (bits c 9 3 = s.config.typewriterEquipment)

/-- The typewriter is the equipment connected on channel x. -/
def State.typewriterConnected (s : State) (x : BitVec 2) : Bool :=
  match (s.channel x).conn with
  | none => false
  | some k => decide (x = s.config.typewriterChannel) && decide (k.equipment = s.config.typewriterEquipment)

/-- The typewriter takes part in what goes on on channel x: it is connected there, switched on, and the operation was
not begun with a transmission parity error uncleared (R404, R405, R419; DEDUCED, unsafe: log 39). -/
def State.typewriterWorks (s : State) (x : BitVec 2) : Bool :=
  s.typewriterConnected x && s.console.typewriterOn && !s.typewriter.opLocked

/-- Interrupt On Abnormal Operation after a function code: with bits 0 and 1 together the selection is free (log 16). -/
def Typewriter.selects (t : Typewriter) (c : BitVec 12) (free : Bool) : Bool :=
  if c.getLsbD 0 && c.getLsbD 1 then free
  else if c.getLsbD 0 then true
  else if c.getLsbD 1 then false
  else t.intSelected

/-- The function codes, bit by bit (Table 7-4): 0 selects the interrupt, 1 clears the selection, 2 clears the interrupt
and the type parity error.  Whether a selection raises the signal for a condition that is already up is free, `late`
(log 36). -/
def Typewriter.function (t : Typewriter) (c : BitVec 12) (free late : Bool) : Typewriter :=
  { t with
    intSelected := t.selects c free
    intSignal := (t.intSignal && !c.getLsbD 2)
      || (c.getLsbD 0 && t.selects c free && (t.endOfLine || (t.typeParity && !c.getLsbD 2)) && late)
    typeParity := t.typeParity && !c.getLsbD 2 }

/-- The twelve status lines: Ready, Busy, Upper case, End of Line (bit 5), Type Parity Error (bit 10) (R405). Ready
stays up while a transmission parity error is uncleared (DESIGN CHOICE, unsafe: log 39); it drops while the typewriter
is switched off, and the other lines stay as they are (DESIGN CHOICE, unsafe: log 37). -/
def Typewriter.status (t : Typewriter) (on : Bool) : BitVec 12 :=
  (if on then 0o0001 else 0) ||| (if t.busy then 0o0002 else 0) ||| (if t.upper then 0o0004 else 0)
    ||| (if t.endOfLine then 0o0040 else 0) ||| (if t.typeParity then 0o2000 else 0)

/-- The letters of Table 7-3. -/
def typewriterLetter (code : BitVec 6) : Option Char :=
  match code.toNat with
  | 0o12 => some 'A' | 0o01 => some 'B' | 0o11 => some 'C' | 0o55 => some 'D' | 0o51 => some 'E' | 0o30 => some 'F'
  | 0o74 => some 'G' | 0o45 => some 'H' | 0o16 => some 'I' | 0o70 => some 'J' | 0o15 => some 'K' | 0o41 => some 'L'
  | 0o72 => some 'M' | 0o31 => some 'N' | 0o42 => some 'O' | 0o54 => some 'P' | 0o10 => some 'Q' | 0o56 => some 'R'
  | 0o46 => some 'S' | 0o75 => some 'T' | 0o35 => some 'U' | 0o36 => some 'V' | 0o02 => some 'W' | 0o71 => some 'X'
  | 0o40 => some 'Y' | 0o73 => some 'Z'
  | _ => none

/-- Table 7-3: what a code types in lower and in upper case. -/
def typewriterGlyph (upper : Bool) (code : BitVec 6) : Typed :=
  match typewriterLetter code with
  | some c => if upper then .spaced else .char c
  | none =>
    match code.toNat with
    | 0o43 => .char (if upper then ')' else '0')
    | 0o77 => if upper then .char '±' else .char '1'
    | 0o37 => .char (if upper then '@' else '2')
    | 0o33 => .char (if upper then '#' else '3')
    | 0o47 => .char (if upper then '$' else '4')
    | 0o57 => .char (if upper then '%' else '5')
    | 0o13 => .char (if upper then '¢' else '6')
    | 0o53 => .char (if upper then '&' else '7')
    | 0o17 => .char (if upper then '*' else '8')
    | 0o07 => .char (if upper then '(' else '9')
    | 0o50 => .char (if upper then ':' else ';')
    | 0o44 => .char (if upper then '?' else '/')
    | 0o34 => .char (if upper then '+' else '=')
    | 0o04 => .char (if upper then '_' else '-')
    | 0o60 => .space
    | 0o61 => .backspace
    | 0o62 => .tab
    | 0o63 => .carriageReturn
    | 0o64 => .upperCase
    | 0o66 => .lowerCase
    | 0o00 => .nothing
    | 0o65 => .nothing
    | 0o67 => .nothing
    | _ => .unknown

/-- A code carried out, from the channel or from a key: the typewriter is busy, 64 and 66 shift, 63 returns the carriage
(R405, R406, R408; Busy is DEDUCED, unsafe: log 39). A carriage return drops Type Parity Error also when a key gave it
(DESIGN CHOICE, unsafe: log 39). -/
def Typewriter.carry (t : Typewriter) (code : BitVec 6) (keyed : Bool) : Typewriter :=
  { t with
    busy := true
    typed := t.typed ++ [{ code := code, does := typewriterGlyph t.upper code, atEnd := t.endOfLine, keyed := keyed }]
    upper := if code = 0o64 then true else if code = 0o66 then false else t.upper
    endOfLine := t.endOfLine && !decide (code = 0o63)
    typeParity := t.typeParity && !decide (code = 0o63) }

/-- A key struck (R407). -/
def Typewriter.strike (t : Typewriter) (code : BitVec 6) : Typewriter := t.carry code true

/-- One 6-bit frame of output, none for a character that is missed (R406). -/
def Typewriter.typeCode (t : Typewriter) (code : Option (BitVec 6)) : Typewriter :=
  match code with
  | none => t
  | some c => t.carry c false

/-- A 12-bit byte of output: the upper frame, then the lower one (R406).  After a key was struck during the output, or
the typewriter's logic has failed, or for a byte with bad parity, a character may be missed or be another one: `instead`
(R405, R406, R419 case 3; DESIGN CHOICE, safe: log 39). -/
def Typewriter.typeByte (t : Typewriter) (byte : BitVec 12) (bad : Bool)
    (instead : Option (BitVec 6) × Option (BitVec 6)) : Typewriter :=
  if t.disturbed || bad then (({ t with disturbed := false } : Typewriter).typeCode instead.1).typeCode instead.2
  else (t.typeCode (some (bits byte 6 6))).typeCode (some (bits byte 0 6))

/-- What the program has typed: the codes of its output, oldest first, and what each did (R406, R408). -/
def Typewriter.output (t : Typewriter) : List (BitVec 6 × Typed) :=
  (t.typed.filter (fun k => !k.keyed)).map (fun k => (k.code, k.does))

/-- The typewriter put in lower case: shifting keeps it busy (R405, R406). -/
def Typewriter.toLowerCase (t : Typewriter) : Typewriter := { t with upper := false, busy := t.busy || t.upper }

/-- End of Line or Type Parity Error raises the interrupt signal when it is selected (R405). -/
def Typewriter.abnormal (t : Typewriter) : Typewriter :=
  { t with intSignal := t.intSignal || t.intSelected }

/-- External Master Clear and CLCH: functions, control logic and the interrupt signal are cleared (R405, R419). -/
def Typewriter.masterClear (t : Typewriter) : Typewriter :=
  { t with connLocked := false, uncleared := false, opLocked := false, intSelected := false, intSignal := false,
           busy := false, typeParity := false, disturbed := false }

end Sys2Proof.Machine
end

