-- ==== Sys2Proof/Machine/Channel.lean ====
section
/-! DEFINITION. The data channels as agents: words and bytes, End of Record, interrupt lines, parity, clearing, and the
events that move them (49_io R385 to R420, 60_exceptions R460, R462). -/

namespace Sys2Proof.Machine

/-- The registers stepped for one data word (R394, R78). -/
def Channel.step (c : Channel) : Channel := { c with addr := c.addr + 1, count := c.count - 1 }

/-- The channel may move data in a direction (R394, R419). -/
def State.moving (s : State) (x : BitVec 2) (d : Direction) : Bool :=
  s.installed x && (s.channel x).active && decide ((s.channel x).dir = d) && !(s.channel x).halted

/-- Channel x reads from a connected equipment other than the typewriter, whose input comes from its keys (R394, R407).
With nothing connected no byte and no End of Record ever comes (R388, R391). -/
def State.reading (s : State) (x : BitVec 2) : Bool :=
  s.moving x .read && (s.channel x).conn.isSome && !s.typewriterConnected x

/-- The equipment that takes the bytes of channel x is connected; the typewriter must also be at work (R394, R404). -/
def State.writing (s : State) (x : BitVec 2) : Bool :=
  s.moving x .write && (s.channel x).conn.isSome && (s.typewriterWorks x || !s.typewriterConnected x)

/-- The Go pulse at the end of Auto-Load: the computer runs, and reads its next instruction at P, the upper one first
(R402 step 5). -/
def State.autoLoadGo (s : State) : State :=
  { s with autoLoad := none, running := true, needRni := true, half := .upper,
           augPending := false, augT := AugT.zero, progress := .idle, resumed := none }

/-- What follows when channel x has become inactive: a waiting CCWD passes (R392 b), and Auto-Load starts the computer
(R402 step 5). -/
def State.wentInactive (s : State) (x : BitVec 2) : State :=
  if s.ccwdWait = some x then s.endWait
  else if s.autoLoad = some x then s.autoLoadGo
  else s

/-- The typewriter goes to lower case at the start and at the end of a write (R406). -/
def State.lowerCase (s : State) (x : BitVec 2) : State :=
  if s.typewriterWorks x && decide ((s.channel x).dir = .write) then
    { s with typewriter := s.typewriter.toLowerCase }
  else s

/-- Active to inactive by count zero or End of Record, with IR bit 10 + x (R400). -/
def State.deactivate (s : State) (x : BitVec 2) : State :=
  ((((s.lowerCase x).setChannel x { s.channel x with active := false }).setIr (10 + x.toNat))).wentInactive x

/-- `EndOfBlock(x)`: a waiting CCWD chains the new control word in A, else the channel goes inactive (R392, R394). -/
def State.endOfBlock (s : State) (x : BitVec 2) : State :=
  if s.ccwdWait = some x then
    (s.setChannel x { s.channel x with addr := bits s.a 0 15, count := bits s.a 24 15 }).endWait
  else s.deactivate x

/-- The end of block when the count has reached zero (R394); a channel that has stopped after a parity error stays
active (R419, U18). -/
def State.endIfDone (s : State) (x : BitVec 2) : State :=
  if (s.channel x).count = 0 && !(s.channel x).halted then s.endOfBlock x else s

/-- A channel's store at its current address, with the registers stepped and the assembly register cleared; it is not
bounds checked (R84, R394). -/
def State.channelStore (s : State) (x : BitVec 2) (w : Word) : State :=
  ({ s with memory := Memory.setWord s.memory (s.channel x).addr w } : State).setChannel x
    { (s.channel x).step with assembly := 0, held := 0 }

/-- `InputWord(x)` with the assembled word (R394). -/
def State.inputWord (s : State) (x : BitVec 2) (w : Word) : Result :=
  if s.hasWord (s.channel x).addr then .next ((s.channelStore x w).endIfDone x) else .fault .noSuchStorage

/-- The position of the next byte of a word being assembled (R70 item 3, R398). -/
def bytePosition (reversed : Bool) (held : BitVec 3) : Nat :=
  if reversed then 12 * held.toNat else 36 - 12 * held.toNat

/-- The word being assembled is assembled in reverse: the signal at its first byte holds for the whole word (R394,
R398). -/
def Channel.reversing (c : Channel) (reversed : Bool) : Bool := if c.held = 0 then reversed else c.reverse

/-- The channel with one more byte in its assembly register (R394, R398, R419 case 4). -/
def State.withByte (s : State) (x : BitVec 2) (byte : BitVec 12) (reversed bad halt : Bool) : Channel :=
  { s.channel x with
    assembly := setBits (s.channel x).assembly
      (bytePosition ((s.channel x).reversing reversed) (s.channel x).held) byte
    held := (s.channel x).held + 1
    reverse := (s.channel x).reversing reversed
    parErr := (s.channel x).parErr || bad
    halted := bad && halt && s.selected (20 + x.toNat) }

/-- A 12-bit byte arrives (R394); after a parity error that is selected the channel may stop (R419, U18). -/
def State.byteIn (s : State) (x : BitVec 2) (byte : BitVec 12) (reversed bad halt : Bool) : Result :=
  if s.reading x then
    if (s.withByte x byte reversed bad halt).held.toNat < 4 then
      .next (s.setChannel x (s.withByte x byte reversed bad halt))
    else
      (s.setChannel x (s.withByte x byte reversed bad halt)).inputWord x
        (s.withByte x byte reversed bad halt).assembly
  else .next s

/-- The typewriter begins to type what the channel presents (R405, R406). -/
def State.presentWord (s : State) (x : BitVec 2) : State :=
  if s.typewriterWorks x then { s with typewriter := { s.typewriter with busy := true } } else s

/-- `OutputWord(x)`: the next word from storage, its parity checked (R394, R417). -/
def State.wordOut (s : State) (x : BitVec 2) (stepNow : Bool) : Result :=
  if s.moving x .write && decide ((s.channel x).held = 0) && decide ((s.channel x).count ≠ 0) then
    if s.hasWord (s.channel x).addr then
      .next (((s.presentWord x).setIrIf 45 (decide ((s.channel x).addr ∈ s.badParity))).setChannel x
        { (if stepNow then (s.channel x).step else s.channel x) with
          assembly := Memory.word s.memory (s.channel x).addr, held := 4, stepped := stepNow })
    else .fault .noSuchStorage
  else .next s

/-- The byte that channel x sends next, bits 47..36 of the word first (R394, R70 item 3). -/
def Channel.outByte (c : Channel) : BitVec 12 := bits c.assembly (12 * (c.held.toNat - 1)) 12

/-- The channel after the Reply to an output byte; with the last byte of a word the registers are stepped unless they
were stepped when the word was read (R394, D33, R419 case 3). -/
def State.byteSent (s : State) (x : BitVec 2) (bad halt : Bool) : Channel :=
  { (if (s.channel x).held = 1 && !(s.channel x).stepped then (s.channel x).step else s.channel x) with
    held := (s.channel x).held - 1
    parErr := (s.channel x).parErr || bad
    halted := bad && halt && s.selected (20 + x.toNat) }

/-- The equipment takes an output byte; the typewriter types it, a byte with bad parity as it may (R394, R406, R419 case
3; DESIGN CHOICE, safe: log 39). -/
def State.takeByte (s : State) (x : BitVec 2) (byte : BitVec 12) (bad : Bool) : State :=
  if s.typewriterConnected x then
    { s with
      typewriter := s.typewriter.typeByte byte bad (Config.disturbedCodes s.draws)
      draws := if s.typewriter.disturbed || bad then s.draws + 1 else s.draws }
  else s

/-- The equipment replies to the next output byte (R394).  A typewriter that is not at work never replies (R404). -/
def State.byteOut (s : State) (x : BitVec 2) (bad halt : Bool) : Result :=
  if s.writing x && decide ((s.channel x).held ≠ 0) then
    if (s.channel x).held = 1 then
      .next (((s.takeByte x (s.channel x).outByte bad).setChannel x (s.byteSent x bad halt)).endIfDone x)
    else .next ((s.takeByte x (s.channel x).outByte bad).setChannel x (s.byteSent x bad halt))
  else .next s

/-- The four bytes of a word in the n-th of their orders (U16). -/
def arrange (w : Word) (n : Nat) : Word :=
  let l := [bits w 36 12, bits w 24 12, bits w 12 12, bits w 0 12]
  let l1 := l.eraseIdx (n % 4)
  let l2 := l1.eraseIdx (n / 4 % 3)
  let l3 := l2.eraseIdx (n / 12 % 2)
  l.getD (n % 4) 0 ++ l1.getD (n / 4 % 3) 0 ++ l2.getD (n / 12 % 2) 0 ++ l3.getD 0 0

/-- A word stored by a channel that then goes inactive (R397, R407). -/
def State.storeAndEnd (s : State) (x : BitVec 2) (w : Word) : Result :=
  if s.hasWord (s.channel x).addr then .next ((s.channelStore x w).deactivate x) else .fault .noSuchStorage

/-- `EndOfRecord(x)`: a partial word is zero filled and stored, then the channel goes inactive (R397); the order of a
reverse-assembled partial word is free (U16). -/
def State.endOfRecord (s : State) (x : BitVec 2) : Result :=
  if s.reading x then
    if (s.channel x).held = 0 then .next (s.deactivate x)
    else if (s.channel x).reverse then
      s.drawWord.2.storeAndEnd x (arrange (s.channel x).assembly s.drawWord.1.toNat)
    else s.storeAndEnd x (s.channel x).assembly
  else .next s

/-- An equipment's interrupt line (R401).  The typewriter's line is driven by the typewriter (R405). -/
def State.lineEvent (s : State) (x : BitVec 2) (e : BitVec 3) (level : Bool) : State :=
  if decide (x = s.config.typewriterChannel) && decide (e = s.config.typewriterEquipment) then s
  else if level then
    s.setChannel x { s.channel x with lines := (s.channel x).lines ||| BitVec.twoPow 8 e.toNat }
  else s.setChannel x { s.channel x with lines := (s.channel x).lines &&& ~~~(BitVec.twoPow 8 e.toNat) }

/-- The operator's switches work: System Active or Maintenance Mode is on (R470). -/
def State.switchesLive (s : State) : Bool := s.systemActive || s.console.maintenance

/-- A key code sent to channel x as one word, three bytes of zeros first; with a parity error the channel's bit is set
and the condition stays until it is cleared (R407, R419 case 4, U18). -/
def State.keyWord (s : State) (x : BitVec 2) (code : BitVec 6) (bad halt : Bool) : Result :=
  (({ s with typewriter := { s.typewriter with uncleared := s.typewriter.uncleared || bad } } : State).setChannel x
    { s.channel x with
      parErr := (s.channel x).parErr || bad
      halted := bad && halt && s.selected (20 + x.toNat) }).inputWord x (code.setWidth 48)

/-- A typewriter key: in a Read on the connected typewriter its code goes to the channel (R407); struck during output it
disturbs the next character (R406). -/
def State.keyEvent (s : State) (code : BitVec 6) (bad halt : Bool) : Result :=
  let x := s.config.typewriterChannel
  let t := s.typewriter.strike code
  if !s.console.typewriterOn then .next s
  else if s.typewriterWorks x && s.moving x .read then ({ s with typewriter := t } : State).keyWord x code bad halt
  else if s.typewriterWorks x && s.moving x .write then .next { s with typewriter := { t with disturbed := true } }
  else .next { s with typewriter := t }

/-- The console's End of Record switch: a word of zeros is stored and the channel goes inactive (R407). -/
def State.typewriterEnd (s : State) : Result :=
  let x := s.config.typewriterChannel
  if s.switchesLive && s.typewriterWorks x && s.moving x .read then s.storeAndEnd x 0 else .next s

/-- The typewriter has an output byte to type. -/
def State.typing (s : State) : Bool :=
  let x := s.config.typewriterChannel
  s.typewriterWorks x && s.moving x .write && decide ((s.channel x).held ≠ 0)

/-- The typewriter reaches the right margin of the line it is typing (R405). -/
def State.reachMargin (s : State) : State :=
  if s.console.typewriterOn && s.typewriter.busy then
    { s with typewriter := ({ s.typewriter with endOfLine := true } : Typewriter).abnormal }
  else s

/-- A parity error in the typewriter logic, during output only: what is typed next is not necessarily what the code says
(R405; the byte is free, DESIGN CHOICE, safe: log 39). -/
def State.typeParityError (s : State) : State :=
  if s.typewriterWorks s.config.typewriterChannel && s.moving s.config.typewriterChannel .write then
    { s with typewriter := ({ s.typewriter with typeParity := true, disturbed := true } : Typewriter).abnormal }
  else s

/-- The typewriter is no longer busy, if it has nothing to type (R405). -/
def State.typewriterIdle (s : State) : State :=
  if s.console.typewriterOn && !s.typing then { s with typewriter := { s.typewriter with busy := false } } else s

/-- `ParityBad` at an address set or cleared (R39). -/
def State.markParity (s : State) (addr : Addr) (bad : Bool) : State :=
  { s with badParity :=
      if bad then addr :: s.badParity.filter (· ≠ addr) else s.badParity.filter (· ≠ addr) }

/-- A failure of storage: the word reads otherwise, with bad parity (R417, D30). -/
def State.corruptWord (s : State) (addr : Addr) (w : Word) : State :=
  if s.hasWord addr then { s.markParity addr true with memory := Memory.setWord s.memory addr w } else s

/-- An event between two storage references of the program (R79, R395). -/
def Async.perform (e : Async) (s : State) : Result :=
  match e with
  | .byteIn x byte reversed bad halt => s.byteIn x byte reversed bad halt
  | .wordOut x stepNow => s.wordOut x stepNow
  | .byteOut x bad halt => s.byteOut x bad halt
  | .endOfRecord x => s.endOfRecord x
  | .line x e level => .next (s.lineEvent x e level)
  | .status x v => .next (s.setChannel x { s.channel x with status := v })
  | .tick => .next (if s.selected 44 && s.ccwdWait.isNone then s.setIr 44 else s)
  | .manualInterrupt => .next (if s.switchesLive && s.selected 43 then s.setIr 43 else s)
  | .parity addr bad => .next (s.markParity addr bad)
  | .corrupt addr w => .next (s.corruptWord addr w)
  | .key code bad halt => s.keyEvent code bad halt
  | .typewriterEndOfRecord => s.typewriterEnd
  | .typewriterEndOfLine => .next s.reachMargin
  | .typewriterTypeParity => .next s.typeParityError
  | .typewriterReady => .next s.typewriterIdle

/-- A list of events in order, then the rest. -/
def State.runEvents (s : State) (es : List Async) (k : State → Result) : Result :=
  match es with
  | [] => k s
  | e :: rest =>
    match e.perform s with
    | .next s' => s'.runEvents rest k
    | .fault f => .fault f
    | .refused r => .refused r

/-- The typewriter is put in lower case at the end of a write that is cut off (R406). -/
def State.cutWrite (s : State) (x : BitVec 2) : State := if (s.channel x).active then s.lowerCase x else s

/-- Channel x and its equipments cleared: control word, connection, parity error, assembly register and the equipments'
lines and functions (R391, R481). -/
def State.wipeChannel (s : State) (x : BitVec 2) : State :=
  let s1 := (s.cutWrite x).setChannel x
    { s.channel x with active := false, addr := 0, count := 0, conn := none, parErr := false, lines := 0,
                       assembly := 0, held := 0, reverse := false, stepped := false, halted := false }
  if x = s.config.typewriterChannel then { s1 with typewriter := s1.typewriter.masterClear } else s1

/-- Channel x cleared by CLCH; IR bit 10 + x is free when the channel was active (R391, R400, U17). An Auto-Load that
waits on the channel goes on waiting, with no Go (DESIGN CHOICE, unsafe: log 17). -/
def State.clearChannel (s : State) (x : BitVec 2) : State :=
  (if (s.channel x).active then s.freeIr (10 + x.toNat) else s).wipeChannel x

/-- Channel x cleared if it exists. -/
def State.wipeInstalled (s : State) (x : BitVec 2) : State := if s.installed x then s.wipeChannel x else s

/-- IR bits 10 to 13. -/
def inactiveBits : Word := bit48 10 ||| bit48 11 ||| bit48 12 ||| bit48 13

/-- IR bits 10 to 13 take free values (R58, 93 section 2). -/
def State.freeInactive (s : State) : State :=
  { s.drawWord.2 with irff := (s.irff &&& ~~~inactiveBits) ||| (s.drawWord.1 &&& inactiveBits) }

/-- External Master Clear of the channels and equipments (R58, R481). -/
def State.clearChannels (s : State) : State :=
  (((s.freeInactive.wipeInstalled 0).wipeInstalled 1).wipeInstalled 2).wipeInstalled 3

/-- External Master Clear: a waiting CCWD becomes a pass (R392 b, R481). -/
def State.externalClear (s : State) : State :=
  if s.clearChannels.ccwdWait.isSome then s.clearChannels.endWait
  else s.clearChannels

end Sys2Proof.Machine
end

