-- ==== Sys2Proof/Machine/Reference.lean ====
section
/-! DEFINITION. The storage references of the program: interrupt entries, operand reads, checked stores, the
read-modify-write pair, the return jump and Read Next Instruction (20_memory R66 to R69, R74, R79; 46_jumps R314; 49_io
R417, R418; 60_exceptions R436 to R442).

The next list of `slots` holds the events that fall just before a reference, so a channel may move between any two
references of the program, the store of an interrupt entry among them.  A bounds violation is found before the first reference of the instruction, so that it leaves
nothing behind (R74). -/

namespace Sys2Proof.Machine

/-- The events before the next storage reference, then the reference (R79). -/
def State.slot (s : State) (k : State → Result) : Result :=
  match s.slots with
  | [] => k s
  | es :: rest => ({ s with slots := rest } : State).runEvents es k

/-- A Category I entry that follows another storage reference of the same turn: a channel may move before it, and not
inside it, since it is one indivisible step (R436, R79). -/
def State.cat1Interrupt (s : State) (pn : Addr) (hn : Half) : Result :=
  s.slot (fun s1 => .next (s1.cat1Entry pn hn))

/-- `raise BoundsFault`: IR bit 42 and at once the Category I interrupt that repeats the instruction (R74, R439). -/
def State.boundsFault (s : State) : Result := (s.setIr 42).cat1Interrupt s.p s.resumeHalf

/-- The return jump of a Category II or III entry: the store at the fixed word f, then the read of that word into U, two
references (R440, R442, R79), with the parity of the read (R418). -/
def State.trapJump (s : State) (f ret : Addr) : Result :=
  s.slot (fun s1 =>
    ({ s1 with memory := Memory.setField s1.memory f 24 ret } : State).slot (fun s2 =>
      .next ((s2.arrive f).entryParity f)))

/-- `Cat2Entry` for f = 0o30 + `low` (R440). -/
def State.cat2Entry (s : State) (low : BitVec 2) : Result :=
  ({ s with mode2 := true, exit2 := s.resumeHalf } : State).trapJump (0o00030 + low.setWidth 15) s.p

/-- `Cat3Entry` (R442). -/
def State.cat3Entry (s : State) : Result :=
  ({ s with mode3 := true, exit3 := s.resumeHalf } : State).trapJump 0o00020 s.p

/-- An illegal instruction (R442). -/
def State.illegal (s : State) : Result := s.cat3Entry

/-- A jump to the upper half of t, its target checked (R124, R300). -/
def State.jumpTo (s : State) (plain : Bool) (t : Addr) : Result :=
  if s.outOfBounds t then s.boundsFault else .next (s.transfer plain t .upper)

/-- `RejectJump(n)` of a 48-bit I/O instruction (R383 item 4). -/
def State.rejectJump (s : State) (n : Addr) : Result := s.jumpTo false n

/-- The breakpoint matches an operand address (R474). -/
def State.breakOperand (s : State) (a : Addr) : Bool :=
  decide (s.console.breakAddress = a)
    && (decide (s.console.breakSelect = .operand) || decide (s.console.breakSelect = .either))

/-- The breakpoint matches an instruction address (R474). -/
def State.breakInstruction (s : State) (a : Addr) : Bool :=
  decide (s.console.breakAddress = a)
    && (decide (s.console.breakSelect = .instruction) || decide (s.console.breakSelect = .either))

/-- What a reference to an operand at a leaves besides its data: a breakpoint match (R474). -/
def State.noteOperand (s : State) (a : Addr) : State :=
  { s with stopRequest := s.stopRequest || s.breakOperand a }

/-- What an operand read leaves besides its data: also IR bit 45 on a parity error (R417). -/
def State.noteRead (s : State) (a : Addr) : State :=
  (s.noteOperand a).setIrIf 45 (decide (a ∈ s.badParity))

/-- `MemRead(addr, 48)`: never bounds checked (R66). -/
def State.readOperand (s : State) (a : Addr) (k : State → Word → Result) : Result :=
  if s.hasWord a then s.slot (fun s1 => k (s1.noteRead a) (Memory.word s1.memory a)) else .fault .noSuchStorage

/-- The one storage reference of a partial store whose address is in bounds: the field alone is written, the other bits
are as they stand at that moment, and nothing is read (R68, R75, R79, R105).  That R492 lists these stores as two
references changes nothing that can be seen (DEDUCED: log 40). -/
def State.writeField {n : Nat} (s : State) (a : Addr) (lo : Nat) (v : BitVec n) (k : State → Result) : Result :=
  if s.hasWord a then
    s.slot (fun s1 => k ({ s1.noteOperand a with memory := Memory.setField s1.memory a lo v }))
  else .fault .noSuchStorage

/-- `MemWritePart(addr, hi, lo, v)` (R68). -/
def State.storeField {n : Nat} (s : State) (a : Addr) (lo : Nat) (v : BitVec n) (k : State → Result) : Result :=
  if s.outOfBounds a then s.boundsFault else s.writeField a lo v k

/-- The storage reference of a whole-word store whose address is in bounds. That R492 gives STL a read before it
changes nothing that can be seen (DEDUCED: log 40). -/
def State.writeWord (s : State) (a : Addr) (v : Word) (k : State → Result) : Result :=
  if s.hasWord a then
    s.slot (fun s1 => k ({ s1.noteOperand a with memory := Memory.setWord s1.memory a v }))
  else .fault .noSuchStorage

/-- `MemWrite(addr, 48, v)` (R67). -/
def State.storeWord (s : State) (a : Addr) (v : Word) (k : State → Result) : Result :=
  if s.outOfBounds a then s.boundsFault else s.writeWord a v k

/-- A read and then a checked store of the same word: two references (R75, R81, R270).  `f` gives the stored word and
the state in which the store is made. -/
def State.replace (s : State) (a : Addr) (f : State → Word → State × Word) (k : State → Result) : Result :=
  if s.outOfBounds a then s.boundsFault
  else s.readOperand a (fun s1 x => (f s1 x).1.writeWord a (f s1 x).2 k)

/-- `ReturnJump(m)`: P + 1 into the upper address of m, then the lower instruction of m (R314). -/
def State.returnJump (s : State) (m : Addr) : Result :=
  s.storeField m 24 (s.p + 1) (fun s1 => .next (s1.transfer false m .lower))

/-- The word read by Read Next Instruction, its parity and its breakpoint (R69, R418, R474). An instruction parity
error interrupts at once when it can, else it stops the computer with the word in U.  The instruction begun next is
another one than the SLS at which the computer may have stopped (R46). -/
def State.loadStep (s : State) : State :=
  { s with u := Memory.word s.memory s.p, needRni := false, stopAfterRead := false, slsStopped := false,
           progress := .idle, resumed := none, stopRequest := s.stopRequest || s.breakInstruction s.p }

end Sys2Proof.Machine
end

