-- ==== Sys2Proof/Machine/Operands.lean ====
section
/-! DEFINITION. Operand forms: the designator b, indirect addressing one level at a time, the modified address, and the
augmented operand (40_sequencing R130 to R136, 41 R169, 42 R191). -/

namespace Sys2Proof.Machine

/-- The position in U of the half being executed. -/
def Half.position (h : Half) : Nat :=
  match h with
  | .upper => 24
  | .lower => 0

/-- The low 18 bits of an indirect word replace the designator and address of the instruction in U (R133, R134). -/
def State.putIndirect (s : State) (w : Word) : State :=
  { s.again (.indirect (bits w 15 3) (bits w 0 15)) with u := setBits s.u (Half.position s.half) (bits w 0 18) }

/-- One level of indirect addressing of a 24-bit instruction: the instruction is begun again from U, so that an
interrupt can come first (R133, R448 point P5). -/
def State.indirect (s : State) (m : Addr) : Result :=
  s.readOperand m (fun s1 w => .next (s1.putIndirect w))

/-- The b designator of an instruction without address modification: b = 7 is indirect (R132, R136). -/
def State.resolve (s : State) (b : Desig) (m : Addr) (k : Result) : Result :=
  if b = 7 then s.indirect m else k

/-- M, Y or K for b = 0 to 6: the field itself, or the field plus the index register (R131, R132). -/
def State.modified (s : State) (b : Desig) (m : Addr) : Addr :=
  if b = 0 then m else add15 m (s.b b)

/-- `EffAddr(b, m)` (R132): one indirect level, or the modified quantity. -/
def State.effective (s : State) (b : Desig) (m : Addr) (k : Addr → Result) : Result :=
  s.resolve b m (k (s.modified b m))

/-- t2 asks for the magnitude of the operand of the augmented instruction (R169, R191). -/
def State.useMagnitude (s : State) : Bool := s.augPending && s.augT.t2

/-- The operand of an instruction that t2 applies to (R169, R191). -/
def State.augmented (s : State) (x : Word) : Word := if s.useMagnitude then mag48 x else x

/-- The operand read at M = EffAddr(b, m). -/
def State.withOperand (s : State) (b : Desig) (m : Addr) (k : State → Word → Result) : Result :=
  s.effective b m (fun a => s.readOperand a k)

/-- A whole-word store at M = EffAddr(b, m). -/
def State.storeAt (s : State) (b : Desig) (m : Addr) (v : Word) : Result :=
  s.effective b m (fun a => s.storeWord a v (fun s1 => .next s1.next24))

/-- One level of indirect addressing of LDCH and STCH: bits 41..39 and 14..0 of U (R330). -/
def State.characterIndirect (s : State) (m : Addr) : Result :=
  s.readOperand m (fun s1 w =>
    .next { s1.again (.indirect (bits w 15 3) (bits w 0 15)) with
      u := setBits (setBits s1.u 39 (bits w 15 3)) 0 (bits w 0 15) })

/-- One level of indirect addressing of a bank jump: the new designator and address are local values of the jump, so
that no other instruction is read from them in U (R134, R321). -/
def State.bankIndirect (s : State) (m : Addr) (jump : Desig → Addr → Instr) : Result :=
  s.readOperand m (fun s1 w =>
    .next { s1.again (.indirect (bits w 15 3) (bits w 0 15)) with
      resumed := some (jump (bits w 15 3) (bits w 0 15)) })

end Sys2Proof.Machine
end

