-- ==== Sys2Proof/Machine/InputOutput.lean ====
section
/-! DEFINITION. The seven input/output instructions (49_io R383 to R392). -/

namespace Sys2Proof.Machine

/-- What 74.0 to 74.6 have in common: illegal while locked, no meaning for an absent channel (R383 items 2 and 3). -/
def State.onIo (s : State) (x : BitVec 2) (k : Result) : Result :=
  if s.locked then s.illegal else if s.installed x then k else .fault .channelNotInstalled

/-- The next answer of the equipments, and the state without it (R395). -/
def State.takeAnswer (s : State) : Answer × State := (s.answers.headD .noResponse, { s with answers := s.answers.tail })

/-- `ChConn[x]` after a Connect code c that was or was not replied to (R386, D34).  So it is also where the code names
another equipment and the connected typewriter has an uncleared transmission parity error, which R405 excepts (DESIGN
CHOICE, unsafe: log 37). -/
def State.connection (s : State) (x : BitVec 2) (c : BitVec 12) (replied : Bool) : State :=
  s.setChannel x
    { s.channel x with conn := if replied then some { equipment := bits c 9 3, unit := bits c 0 9 } else none }

/-- Whether the Connect code c is replied to: the typewriter answers for itself, any other equipment as it chooses
(R386, R395, R405).  An uncleared error in a Function code or in input data does not keep it from replying to a Connect
code (DESIGN CHOICE, unsafe: log 39). -/
def State.connectReply (s : State) (x : BitVec 2) (c : BitVec 12) : Bool :=
  if s.typewriterNamed x c then
    s.console.typewriterOn && !s.typewriter.connLocked && decide (s.takeAnswer.1 ≠ .parity)
  else decide (s.takeAnswer.1 = .reply)

/-- The Connect code c sent on channel x: the connection, and the lock of a typewriter that saw bad parity
(R386, R419 case 2).  A bad code that names another equipment does not lock the typewriter, and one that is switched off
sees nothing (DESIGN CHOICE, unsafe: log 37). -/
def State.connect (s : State) (x : BitVec 2) (c : BitVec 12) : State :=
  let s1 := s.takeAnswer.2.connection x c (s.connectReply x c)
  if s.typewriterNamed x c && s.console.typewriterOn && decide (s.takeAnswer.1 = .parity) then
    { s1 with typewriter := { s1.typewriter with connLocked := true } }
  else s1

/-- CONN (R386).  A rejected CONN whose jump is out of bounds leaves only the bounds fault (R74). -/
def execConn (x : BitVec 2) (c : BitVec 12) (n : Addr) (s : State) : Result :=
  s.onIo x
    (if (s.channel x).active then s.rejectJump n
     else if s.connectReply x c then .next (s.connect x c).advance
     else if s.outOfBounds n then s.takeAnswer.2.boundsFault
     else (s.connect x c).rejectJump n)

/-- Whether the Function code is replied to: nothing connected gives no response; the typewriter never rejects, and does
not reply while a transmission parity error is uncleared (R387, R405, R419 cases 1 and 4). -/
def State.functionReply (s : State) (x : BitVec 2) : Bool :=
  if (s.channel x).conn.isNone then false
  else if s.typewriterConnected x then
    s.console.typewriterOn && !s.typewriter.uncleared && decide (s.takeAnswer.1 ≠ .parity)
  else decide (s.takeAnswer.1 = .reply)

/-- A parity error in the Function code: the channel's bit is set, and a connected typewriter takes no new operation
until it is cleared (R419 case 1). -/
def State.functionParity (s : State) (x : BitVec 2) : State :=
  { s.setChannel x { s.channel x with parErr := true } with
    typewriter := { s.typewriter with uncleared := s.typewriter.uncleared || s.typewriterConnected x } }

/-- The typewriter's functions (R405); what a code leaves open is free (logs 16 and 36). -/
def State.typewriterFunction (s : State) (c : BitVec 12) : State :=
  { s with
    typewriter := s.typewriter.function c (Config.typewriterBothSelect s.draws) (Config.typewriterLateSignal s.draws)
    draws := s.draws + 1 }

/-- The Function code c sent on channel x: after a parity error in it the function is not done; the typewriter, when
it is switched on, does its functions (R387, R404, R405, R419 case 1). -/
def State.function (s : State) (x : BitVec 2) (c : BitVec 12) : State :=
  if (s.channel x).conn.isNone then s
  else if s.typewriterConnected x && !s.console.typewriterOn then s.takeAnswer.2
  else if s.takeAnswer.1 = .parity then s.takeAnswer.2.functionParity x
  else if s.typewriterConnected x && !s.typewriter.uncleared then s.takeAnswer.2.typewriterFunction c
  else s.takeAnswer.2

/-- The Function code is sent and answered, with no other effect; with nothing connected there is nobody to answer. -/
def State.functionSent (s : State) (x : BitVec 2) : State :=
  if (s.channel x).conn.isNone then s else s.takeAnswer.2

/-- EXTF (R387).  A rejected EXTF whose jump is out of bounds leaves only the bounds fault (R74). -/
def execExtf (x : BitVec 2) (c : BitVec 12) (n : Addr) (s : State) : Result :=
  s.onIo x
    (if (s.channel x).active then s.rejectJump n
     else if s.functionReply x then .next (s.function x c).advance
     else if s.outOfBounds n then (s.functionSent x).boundsFault
     else (s.function x c).rejectJump n)

/-- The channel with a control word: address in bits 14..0, count in bits 38..24; it becomes active unless the count is
zero (R388, R393, D35). -/
def Channel.begin (ch : Channel) (d : Direction) (w : Word) : Channel :=
  if bits w 24 15 = 0 then { ch with addr := bits w 0 15, count := 0 }
  else { ch with addr := bits w 0 15, count := bits w 24 15, dir := d, active := true,
                 assembly := 0, held := 0, reverse := false, stepped := false, halted := false }

/-- The connected typewriter takes part in the new operation unless a transmission parity error is uncleared (R419
cases 1 e and 4 c). -/
def State.admitTypewriter (s : State) (x : BitVec 2) : State :=
  if s.typewriterConnected x then
    { s with typewriter := { s.typewriter with opLocked := s.typewriter.uncleared } }
  else s

/-- A control word given to channel x; a write starts the typewriter in lower case (R388, R389, R406). -/
def State.beginOperation (s : State) (x : BitVec 2) (d : Direction) (w : Word) : State :=
  if bits w 24 15 = 0 then s.setChannel x ((s.channel x).begin d w)
  else ((s.setChannel x ((s.channel x).begin d w)).admitTypewriter x).lowerCase x

/-- BEGR (R388). -/
def execBegr (x : BitVec 2) (m n : Addr) (s : State) : Result :=
  s.onIo x
    (if (s.channel x).active then s.rejectJump n
     else s.readOperand m (fun s1 w => .next (s1.beginOperation x .read w).advance))

/-- BEGW (R389). -/
def execBegw (x : BitVec 2) (m n : Addr) (s : State) : Result :=
  s.onIo x
    (if (s.channel x).active then s.rejectJump n
     else s.readOperand m (fun s1 w => .next (s1.beginOperation x .write w).advance))

/-- `ChStatus[x]`: nothing connected reads as 0 (R390, D36), the typewriter gives its own lines (R405). -/
def State.statusLines (s : State) (x : BitVec 2) : BitVec 12 :=
  if (s.channel x).conn.isNone then 0
  else if s.typewriterConnected x then s.typewriter.status s.console.typewriterOn
  else (s.channel x).status

/-- COPY: address and count to A, status and interrupt lines to Q, the other bits 0 (R390, D36). -/
def execCopy (x : BitVec 2) (s : State) : Result :=
  s.onIo x (.next ({ s with
    a := setBits (setBits (0 : Word) 0 (s.channel x).addr) 24 (s.channel x).count
    q := setBits (setBits (0 : Word) 0 (s.statusLines x)) 24 (s.lines x) } : State).advance)

/-- CLCH (R391). -/
def execClch (x : BitVec 2) (s : State) : Result := s.onIo x (.next (s.clearChannel x).advance)

/-- CCWD: rejected when A has no count or the channel is inactive, else the program waits (R392). -/
def execCcwd (x : BitVec 2) (n : Addr) (s : State) : Result :=
  s.onIo x
    (if bits s.a 24 15 = 0 || !(s.channel x).active then s.rejectJump n
     else .next { s with slsStopped := false, ccwdWait := some x })

end Sys2Proof.Machine
end

