-- ==== Sys2Proof/Machine/Console.lean ====
section
/-! DEFINITION. Master clears, Restart, Auto-Load and the console switches (70_reset R480 to R485, 49_io R402,
60_exceptions R470 to R475). -/

namespace Sys2Proof.Machine

/-- A half chosen by a free bit. -/
def freeHalf (b : Bool) : Half := if b then .lower else .upper

/-- `ChParErr` of channel x takes a free value (U20). -/
def State.freeParErr (s : State) (w : Word) (x : BitVec 2) : State :=
  if s.installed x then s.setChannel x { s.channel x with parErr := w.getLsbD (20 + x.toNat) } else s

/-- Internal Master Clear (R480): operational registers and control flip-flops cleared; IR bits 10 to 13 and 44, the
channels' parity error bits, MASK and the Exits free (93 section 2, U20). A Restart that waits for the end of an
instruction is dropped with the instruction (DESIGN CHOICE, unsafe: log 35). -/
def State.internalClear (s : State) : State :=
  let w := s.drawWord.1
  let m := s.drawWord.2.drawWord.1
  let s1 := s.drawWord.2.drawWord.2
  let s2 : State := { s1 with
    a := 0, q := 0, index := { b1 := 0, b2 := 0, b3 := 0, b4 := 0, b5 := 0, b6 := 0 }, p := 0, u := 0,
    half := .upper, needRni := true, running := false, slsStopped := false,
    augPending := false, augT := AugT.zero,
    irff := w &&& (bit48 10 ||| bit48 11 ||| bit48 12 ||| bit48 13 ||| bit48 44),
    mask := m, intActive := false, mode1 := false, mode2 := false, mode3 := false,
    exit1 := freeHalf (w.getLsbD 0), exit2 := freeHalf (w.getLsbD 1), exit3 := freeHalf (w.getLsbD 2),
    lockout := false, ccwdWait := none, passedExit := none, stopRequest := false, restartRequest := false,
    stopAfterRead := true, progress := .idle, resumed := none }
  (((s2.freeParErr w 0).freeParErr w 1).freeParErr w 2).freeParErr w 3

/-- The External Clear switch: an External Master Clear, which leaves `running` as it is (R58, R481). It ends the wait of
an Auto-Load; whether the Go pulse of R402 step 5 follows the forced end of the channel's operation is free (DESIGN
CHOICE, safe: log 17). -/
def State.externalClearSwitch (s : State) : State :=
  let s1 := s.externalClear
  if s1.autoLoad.isSome then
    if s1.drawBit.1 then s1.drawBit.2.autoLoadGo else { s1.drawBit.2 with autoLoad := none }
  else s1

/-- Restart (R483): P goes to the upper address of 00000 and the lower instruction there is next. -/
def State.restart (s : State) : State :=
  let s1 := s.externalClear
  ({ s1 with intActive := false, autoLoad := none, running := true, stopRequest := false, restartRequest := false }
    : State).enter 0 s1.p

/-- The control word of Auto-Load: count 77777, address 00000 (R402 step 4). -/
def autoLoadWord : Word := 0o0007777700000000

/-- The read of an Auto-Load; when its Function was not replied to the channel stays active and no data come (R402 step
4, R495, D39). -/
def State.beginAutoLoad (s : State) (x : BitVec 2) (replied : Bool) : State :=
  let s1 := s.beginOperation x .read autoLoadWord
  { s1.setChannel x { s1.channel x with halted := !replied } with autoLoad := some x }

/-- Auto-Load up to the start of the read (R402 steps 1 to 4). -/
def State.startAutoLoad (s : State) : Result :=
  let x := s.console.autoChannel
  if s.installed x then
    let s1 := s.internalClear.externalClear.connect x s.console.autoConnect
    .next ((s1.function x s.console.autoFunction).beginAutoLoad x (s1.functionReply x))
  else .fault .channelNotInstalled

/-- Another word comes into U than the program step it held: no part of that step goes on, an SLS at which the computer
has stopped is left (R46), and so is an augment (R45; DEDUCED, unsafe: log 22). -/
def State.replaceU (s : State) (w : Word) : State :=
  { s with u := w, progress := .idle, resumed := none, slsStopped := false, augPending := false, augT := AugT.zero }

/-- Go with Enter Mode: A or Q to U and to the word at P, P advanced, the computer stays stopped (R472). -/
def State.enterWord (s : State) : Result :=
  let v := if s.console.selectQ then s.q else s.a
  if s.hasWord s.p then
    .next { s.replaceU v with memory := Memory.setWord s.memory s.p v, p := s.p + 1,
                              a := if s.console.selectQ then s.a else 0 }
  else .fault .noSuchStorage

/-- The Go switch: in Maintenance Mode, with no channel active and the computer stopped, outside Test Mode (R470, R471,
R472). -/
def State.go (s : State) : Result :=
  if s.console.maintenance && !s.console.testMode && !s.anyActive && !s.running then
    if s.console.enterMode && !s.console.sweepMode then s.enterWord else .next { s with running := true }
  else .next s

/-- Step 1 of a Test Mode cycle: an Internal Master Clear, with an External one in the Extended Test Cycle, which cuts
an Auto-Load as the External Clear switch does (log 17); a wait when Step Mode is on (R476). -/
def State.testClear (s : State) : State :=
  if !s.console.testMode || s.console.stepMode then s
  else if s.console.extendedTest then s.internalClear.externalClearSwitch
  else s.internalClear

/-- An instruction has begun and not ended: an indirect level or a search iteration is done, or CCWD waits. -/
def State.midInstruction (s : State) : Bool := s.ccwdWait.isSome || decide (s.progress ≠ .idle)

/-- The computer is to stop at the end of the current instruction (R128, R471, R484; log 35). -/
def State.requestStop (s : State) : State :=
  if s.running && s.midInstruction then { s with stopRequest := true } else { s with running := false }

/-- An indirect chain that is at (b, m) ends within `fuel` more levels, as storage stands (R133). -/
def chainEnds (fuel : Nat) (mem : Memory) (b : Desig) (m : Addr) : Bool :=
  if b = 7 then
    match fuel with
    | 0 => false
    | fuel + 1 => chainEnds fuel mem (bits (Memory.word mem m) 15 3) (bits (Memory.word mem m) 0 15)
  else true

/-- The instruction in execution never ends by itself: its indirect chain closes on itself, so that Stop or Restart
ends it (R495).  A chain that ends visits no address twice (DEDUCED, safe: log 35). -/
def State.endless (s : State) : Bool :=
  match s.progress with
  | .indirect b m => !chainEnds (2 ^ 15) s.memory b m
  | .idle => false
  | .search => false

/-- The computer stands between two instructions, or in one that never ends. -/
def State.atBoundary (s : State) : Bool := !s.running || decide (s.progress = .idle) || s.endless

/-- The Restart switch: at the end of the current instruction (R483); CCWD is ended by the External Master Clear. -/
def State.requestRestart (s : State) : State :=
  if s.ccwdWait.isSome || s.atBoundary then s.restart else { s with restartRequest := true }

/-- The Go pulse of step 3 (on) and the stop of step 5 (off) of a Test Mode cycle (R476). -/
def State.testRun (s : State) (on : Bool) : State :=
  if s.console.testMode then (if on then { s with running := true } else s.requestStop) else s

/-- Whether Auto-Load goes on waiting when System Active goes Off is free (DESIGN CHOICE, safe: log 17). -/
def State.freeAutoLoad (s : State) : State :=
  if s.autoLoad.isSome then
    { s.drawBit.2 with autoLoad := if s.drawBit.1 then s.autoLoad else none }
  else s

/-- The System Active switch (R484).  Going Off drops a Restart that waits for the end of an instruction (DEDUCED, safe:
log 35). -/
def State.setSystemActive (s : State) (on : Bool) : State :=
  if on = s.systemActive then s
  else if on then { s.internalClear.externalClear with systemActive := true, autoLoad := none }
  else { s.requestStop.freeAutoLoad with systemActive := false, restartRequest := false }

/-- A register written by the push buttons (R470). -/
def State.panelWrite (s : State) (r : PanelRegister) (v : Word) : State :=
  if s.console.maintenance && !s.anyActive && !s.running then
    match r with
    | .a => { s with a := v }
    | .q => { s with q := v }
    | .u => s.replaceU v
    | .p => { s with p := bits v 0 15 }
    | .b n => s.setB n (bits v 0 15)
  else s

/-- The switches of the console; with System Active and Maintenance Mode off only the Maintenance Mode switch works
(R470). -/
def State.setSwitches (s : State) (c : Console) : State :=
  if s.switchesLive then { s with console := c }
  else { s with console := { s.console with maintenance := c.maintenance } }

/-- Sweep Mode: the word at P into U, P advanced, no instruction executed (R475). `half` and `needRni` stay as they
are, as they do in Enter Mode (DEDUCED, unsafe: log 22). -/
def State.sweep (s : State) : Result :=
  if s.hasWord s.p then
    .next { s.replaceU (Memory.word s.memory s.p) with p := s.nextP, running := !s.console.stepMode }
  else .fault .noSuchStorage

/-- The indicators of the console and the maintenance panel that show state between two steps (R42). Execute Cycle,
Operand Cycle, Extended Cycle and Jump Condition light inside an instruction only, and power and temperature are no
state. -/
structure Indicators where
  active0            : Bool
  active1            : Bool
  active2            : Bool
  active3            : Bool
  parityError0       : Bool
  parityError1       : Bool
  parityError2       : Bool
  parityError3       : Bool
  computerRunning    : Bool
  programStop        : Bool
  interruptActive    : Bool
  interruptMode      : Bool
  arithmeticOverflow : Bool
  exponentOverflow   : Bool
  exponentUnderflow  : Bool
  shiftFault         : Bool
  divideFault        : Bool
  instructionParity  : Bool
  operandParity      : Bool
  readNext           : Bool
  upperInstruction   : Bool
  lowerInstruction   : Bool
  maintenanceMode    : Bool
  typeIn             : Bool
deriving DecidableEq, Repr

/-- What the indicators show (R42). Computer Running lights for the program and for channel activity (R396); Interrupt
Mode is the OR of the three flip-flops (R33); Read Next Instruction is lit while U does not hold the step at P, Upper
and Lower Instruction by the half (DEDUCED, unsafe: log 38); Type-In is that of R407. -/
def State.indicators (s : State) : Indicators where
  active0 := s.installed 0 && (s.channel 0).active
  active1 := s.installed 1 && (s.channel 1).active
  active2 := s.installed 2 && (s.channel 2).active
  active3 := s.installed 3 && (s.channel 3).active
  parityError0 := s.installed 0 && (s.channel 0).parErr
  parityError1 := s.installed 1 && (s.channel 1).parErr
  parityError2 := s.installed 2 && (s.channel 2).parErr
  parityError3 := s.installed 3 && (s.channel 3).parErr
  computerRunning := s.running || s.anyActive
  programStop := !s.running
  interruptActive := s.intActive
  interruptMode := s.mode1 || s.mode2 || s.mode3
  arithmeticOverflow := s.ir.getLsbD 3
  exponentOverflow := s.ir.getLsbD 4
  exponentUnderflow := s.ir.getLsbD 5
  shiftFault := s.ir.getLsbD 1
  divideFault := s.ir.getLsbD 2
  instructionParity := s.ir.getLsbD 46
  operandParity := s.ir.getLsbD 45
  readNext := s.needRni
  upperInstruction := decide (s.half = .upper)
  lowerInstruction := decide (s.half = .lower)
  maintenanceMode := s.console.maintenance
  typeIn := s.typewriterWorks s.config.typewriterChannel && s.moving s.config.typewriterChannel .read

end Sys2Proof.Machine
end

