-- ==== Sys2Proof/Machine/Arithmetic.lean ====
section
/-! DEFINITION. Fixed point and address arithmetic (42_arithmetic R184 to R190). -/

namespace Sys2Proof.Machine

/-- ADD (R184, t2 by R191). -/
def execAdd (b : Desig) (m : Addr) (s : State) : Result :=
  s.withOperand b m (fun s1 x => .next (s1.addToA (s1.augmented x)).next24)

/-- SUB: the complement is added (R185). -/
def execSub (b : Desig) (m : Addr) (s : State) : Result :=
  s.withOperand b m (fun s1 x => .next (s1.addToA (~~~(s1.augmented x))).next24)

/-- The 96-bit product in QA; the sign of a zero product is free (R186, U8). -/
def product96 (a x : Word) : BitVec 96 :=
  onesEncodeSigned 96 (onesValue a * onesValue x) (Config.productZeroNegative a.msb x.msb)

/-- QA <- v (R23, R186). -/
def State.setQA (s : State) (v : BitVec 96) : State := { s with q := bits v 48 48, a := bits v 0 48 }

/-- MUI (R186). -/
def execMui (b : Desig) (m : Addr) (s : State) : Result :=
  s.withOperand b m (fun s1 x => .next (s1.setQA (product96 s1.a (s1.augmented x))).next24)

/-- The quotient, truncated toward zero (R187). -/
def quotient (q a x : Word) : Int := (onesValue (q ++ a : BitVec 96)).tdiv (onesValue x)

/-- The remainder, with the sign of the dividend (R187). -/
def remainder (q a x : Word) : Int := (onesValue (q ++ a : BitVec 96)).tmod (onesValue x)

/-- The division faults: the divisor is zero or the quotient does not fit in A (R187). -/
def divides (q a x : Word) : Bool :=
  decide (onesValue x ≠ 0) && decide ((quotient q a x).natAbs < 2 ^ 47)

/-- DVI's effect on A, Q and IR bit 2; the sign of a zero quotient and of a zero remainder is free (R6, U8, D15; log
21), and so are A and Q after a fault (U9). -/
def State.divide (s : State) (x : Word) : State :=
  if divides s.q s.a x then
    { s with
      a := onesEncodeSigned 48 (quotient s.q s.a x) (Config.quotientZeroNegative s.q.msb x.msb)
      q := onesEncodeSigned 48 (remainder s.q s.a x) (Config.remainderZeroNegative s.q.msb x.msb) }
  else
    { s.divideFault true with
      a := Config.divFaultA s.a s.q x
      q := Config.divFaultQ s.a s.q x }

/-- DVI (R187). -/
def execDvi (b : Desig) (m : Addr) (s : State) : Result :=
  s.withOperand b m (fun s1 x => .next (s1.divide (s1.augmented x)).next24)

/-- INA (R188): the overflow fault only where the installation has it. -/
def State.increaseA (s : State) (x : Word) : State :=
  { s.overflowFault (s.config.inaSetsOverflow && overflow48 s.a x) with a := add48 s.a x }

/-- INA (R188). -/
def execIna (b : Desig) (y : Addr) (s : State) : Result :=
  s.effective b y (fun v => .next (s.increaseA (sext15 v)).next24)

/-- INI: with b = 0 a pass (R189). -/
def execIni (b : Desig) (y : Addr) (s : State) : Result :=
  s.resolve b y (.next (s.setB b (add15 y (s.b b))).next24)

/-- ISK: the comparison is of the 15-bit patterns, the count is two's complement; b = 0 reads as zero (R190). -/
def execIsk (b : Desig) (y : Addr) (s : State) : Result :=
  s.resolve b y
    (if s.b b = y then .next ((s.setB b 0).skipIf true) else .next (s.setB b (s.b b + 1)).next24)

end Sys2Proof.Machine
end

