-- ==== Sys2Proof/Machine/Characters.lean ====
section
/-! DEFINITION. Character handling, Augment and the bounds instructions (47_char_aug_bounds R330 to R343). -/

namespace Sys2Proof.Machine

/-- The eight character positions (R331). -/
def characterPosition (p : Addr) : Bool := decide (p.toNat % 6 = 0) && decide (p.toNat ≤ 42)

/-- A character instruction at the position (B^v): v = 7 has no meaning, a wrong position is illegal, b = 7 takes one
indirect level (R330, R332; v = 0 reads as 0, D24). -/
def State.character (s : State) (b v : Desig) (m : Addr) (k : Addr → Nat → Result) : Result :=
  if v = 7 then .fault .characterRegisterSeven
  else if characterPosition (s.b v) then
    if b = 7 then s.characterIndirect m else k (s.modified b m) (s.b v).toNat
  else s.illegal

/-- LDCH (R333). -/
def execLdch (b v : Desig) (m : Addr) (s : State) : Result :=
  s.character b v m (fun t p =>
    s.readOperand t (fun s1 x => .next ({ s1 with a := (bits x p 6).setWidth 48 } : State).advance))

/-- STCH: a read and a checked write of the same word; the write changes six bits of the word as it then stands (R68,
R334; a store of a channel between the two: DEDUCED, log 34). -/
def execStch (b v : Desig) (m : Addr) (s : State) : Result :=
  s.character b v m (fun t p =>
    if s.outOfBounds t then s.boundsFault
    else s.readOperand t (fun s1 _ => s1.writeField t p (bits s1.a 0 6) (fun s2 => .next s2.advance)))

/-- The address that AUG leaves in the lower instruction (R337). -/
def State.augAddress (s : State) (v : Desig) : Addr :=
  if v = 0 then bits s.u 0 15 else add15 (bits s.u 0 15) (s.b v)

/-- One v = 7 level of AUG: a new v into the AUG and a new address into the lower instruction, both in U (R337). -/
def State.augIndirect (s : State) : Result :=
  s.readOperand (bits s.u 0 15) (fun s1 w =>
    .next { s1.again (.indirect (bits w 15 3) (bits w 0 15)) with
      u := setBits (putAugV s1.config.layouts.aug s1.u (bits w 15 3)) 0 (bits w 0 15) })

/-- AUG in the upper half with v other than 7: U, the t designators and the pending flag (R337). -/
def State.augment (s : State) (y : Addr) : State :=
  { s.finish with
    u := setBits s.u 0 (s.augAddress (augV s.config.layouts.aug y)), half := .lower,
    augPending := true, augT := augBits s.config.layouts.aug y, passedExit := s.pass }

/-- AUG: a pass in the lower half (R337). -/
def execAug (y : Addr) (s : State) : Result :=
  match s.half with
  | .lower => .next s.next24
  | .upper => if augV s.config.layouts.aug y = 7 then s.augIndirect else .next (s.augment y)

/-- EUB and ELB are illegal while the bounds interrupt is selected and the system active (R341). -/
def State.boundsLocked (s : State) : Bool := s.intActive && s.selected 42

/-- EUB (R342). -/
def execEub (y : Addr) (s : State) : Result :=
  if s.boundsLocked then s.illegal else .next ({ s with bu := bits y 7 8 } : State).next24

/-- ELB (R343). -/
def execElb (y : Addr) (s : State) : Result :=
  if s.boundsLocked then s.illegal else .next ({ s with bl := bits y 7 8 } : State).next24

end Sys2Proof.Machine
end

