-- ==== Sys2Proof/Machine/Floating.lean ====
section
/-! DEFINITION. The 3410 floating point option (43_floating R210 to R228).

The arithmetic follows the steps of R228 that the source states (marked S there); where R228 guesses (G) and where
U9, U10 and U11 leave a value open, an opaque constant of Config stands (log 15). -/

namespace Sys2Proof.Machine

/-- A floating point word taken apart: sign, biased exponent, coefficient (R210). -/
structure Unpacked where
  neg    : Bool
  biased : Nat
  coef   : Nat
deriving DecidableEq, Repr

/-- What `FpArith` gives (R212). -/
structure FpResult where
  a           : Word
  q           : Word
  divideFault : Bool
  overflow    : Bool
  underflow   : Bool
deriving DecidableEq, Repr

/-- The fields of a word, a negative one complemented first (R210). -/
def unpack (w : Word) : Unpacked where
  neg := w.msb
  biased := (bits (mag48 w) 36 11).toNat
  coef := (bits (mag48 w) 0 36).toNat

/-- The true exponent (R211). -/
def Unpacked.exponent (u : Unpacked) : Int :=
  if u.biased ≥ 0o2000 then (u.biased : Int) - 0o2000 else (u.biased : Int) - 0o1777

/-- The biased exponent whose reading is not stated (R211, U10). -/
def Unpacked.odd (u : Unpacked) : Bool := decide (u.biased = 0o1777)

/-- A word assembled, the whole of it complemented when negative; a zero coefficient clears the exponent (R211, R213
item 6, R228 `pack`). -/
def packFp (neg : Bool) (e : Int) (c : Nat) : Word :=
  let w : Word :=
    if c = 0 then 0
    else BitVec.ofNat 48 ((if e ≥ 0 then e + 0o2000 else e + 0o1777).toNat * 2 ^ 36 + c)
  if neg then ~~~w else w

/-- Left shifts until bit 35 of the coefficient is set, zeros entering (R213 item 3). -/
def leftNormalize (fuel : Nat) (e : Int) (c : Nat) : Int × Nat :=
  match fuel with
  | 0 => (e, c)
  | fuel + 1 => if c ≠ 0 ∧ c < 2 ^ 35 then leftNormalize fuel (e - 1) (2 * c) else (e, c)

/-- The right shift of a coefficient that has outgrown 36 bits: done whatever t1 says (R213 item 2). -/
def rightNormalize (e : Int) (c : Nat) : Int × Nat := if c ≥ 2 ^ 36 then (e + 1, c / 2) else (e, c)

/-- `norm` (R228): t1 = 1 leaves the left shifts out (R217). -/
def normalize (e : Int) (c : Nat) (t1 : Bool) : Int × Nat :=
  if t1 then rightNormalize e c else leftNormalize 36 (rightNormalize e c).1 (rightNormalize e c).2

/-- `finish` (R228): range faults, a zero coefficient, the end sign correction (R213 items 5 and 6, R214, R215). -/
def finishFp (op : FpOp) (x y : Word) (t : AugT) (neg : Bool) (r : Int × Nat) (q : Word) : FpResult :=
  if r.2 = 0 then
    { a := packFp neg 0 0, q := q, divideFault := false, overflow := decide (r.1 > 1023), underflow := false }
  else if r.1 > 1023 then
    { a := Config.fpOverflowA op x y t, q := Config.fpOverflowQ op x y t,
      divideFault := false, overflow := true, underflow := false }
  else if r.1 < -1023 then { a := 0, q := 0, divideFault := false, overflow := false, underflow := true }
  else { a := packFp neg r.1 r.2, q := q, divideFault := false, overflow := false, underflow := false }

/-- Any result, for an operand whose exponent field is 0o1777 (U10); an underflow clears A and Q (R215). -/
def oddFp (op : FpOp) (x y : Word) (t : AugT) : FpResult :=
  let high := Config.fpOddOverflow op x y t
  let low := !high && Config.fpOddUnderflow op x y t
  { a := if low then 0 else Config.fpOddA op x y t, q := if low then 0 else Config.fpOddQ op x y t,
    divideFault := false, overflow := high, underflow := low }

/-- A zero answer by the signs of the operands, Q positive zero, no faults (R224 item 3, R226 items 2 and 4). -/
def zeroFp (neg : Bool) : FpResult where
  a := packFp neg 0 0
  q := 0
  divideFault := false
  overflow := false
  underflow := false

/-- The coefficient with its sign. -/
def Unpacked.signed (u : Unpacked) : Int := if u.neg then - (u.coef : Int) else (u.coef : Int)

/-- The residue of an alignment by d places, left-justified in Q; its form for a negative coefficient and the bits below
it are free (R220 item 1, R228 step G). -/
def alignResidue (x y : Word) (small : Unpacked) (d : Nat) : Word :=
  let r := small.coef % 2 ^ d
  let r := if small.neg && Config.fadResidueComplemented x y then 2 ^ d - 1 - r else r
  BitVec.ofNat 48 (r * 2 ^ (48 - d)) ||| (Config.fadResidueFill x y &&& (BitVec.allOnes 48 >>> d))

/-- The sum of FAD before it is normalized: the smaller operand shifted right d places toward zero, and the rounding
quantity r (R220 items 1 and 3). -/
def fadSum (big small : Unpacked) (d : Nat) (r : Int) : Int := big.signed + small.signed.tdiv (2 ^ d) + r

/-- The sum with rounding quantity r is as close to the exact one as R220 item 5 asks: a fault occurs, or the
normalized result is not zero and differs by less than one unit of its last coefficient place. `p` places every
quantity over a common unit. -/
def fadClose (big small : Unpacked) (d : Nat) (r : Int) : Bool :=
  let sum := fadSum big small d r
  let n := normalize big.exponent sum.natAbs false
  let p := (n.1 - big.exponent + 36).toNat + d
  decide (n.1.natAbs > 1023)
    || (decide (n.2 ≠ 0)
      && decide (((if sum < 0 then -(n.2 : Int) else (n.2 : Int)) * 2 ^ p
        - (big.signed * 2 ^ d + small.signed) * 2 ^ 36).natAbs < 2 ^ p))

/-- The rounding quantity that FAD chooses where it may: -1, 0 or +1, by a criterion that the source does not give
(R220 item 3, N17). -/
def fadFree (x y : Word) (t : AugT) : Int :=
  if Config.fadRounds x y t then (if Config.fadRoundsUp x y t then 1 else -1) else 0

/-- The rounding quantity of FAD: none for equal exponents and with t0 (R220 item 4), else free (DESIGN CHOICE, safe:
log 15). For normalized operands and t = 000 it is one that meets item 5; when cancellation lets none meet it, it is
free. -/
def fadRounding (x y : Word) (t : AugT) (big small : Unpacked) (d : Nat) : Int :=
  if t.t0 || decide (d = 0) then 0
  else if decide (2 ^ 35 ≤ big.coef) && decide (2 ^ 35 ≤ small.coef) && decide (t = AugT.zero) then
    ([fadFree x y t, 0, 1, -1].find? (fun r => fadClose big small d r)).getD (fadFree x y t)
  else fadFree x y t

/-- Q after FAD: the residue of the alignment, empty for equal exponents, positive zero when nothing is shifted (R220
items 1 and 2). -/
def fadQ (x y : Word) (small : Unpacked) (d : Nat) : Word :=
  if d = 0 ∨ d > 36 then 0 else alignResidue x y small d

/-- FAD on the operand of greater exponent and the other one, d the difference (R220 items 1 to 4). -/
def fadAligned (x y : Word) (t : AugT) (big small : Unpacked) (d : Nat) : FpResult :=
  if d > 36 then
    finishFp .add x y t big.neg (normalize big.exponent big.coef t.t1) (fadQ x y small d)
  else
    let sum := fadSum big small d (fadRounding x y t big small d)
    finishFp .add x y t (decide (sum < 0) || (decide (sum = 0) && Config.fadZeroNegative x y t))
      (normalize big.exponent sum.natAbs t.t1) (fadQ x y small d)

/-- FAD as it is aligned, or, with one zero coefficient, the other operand normalized: R228 (marked G there) gives the
latter, R220 items 1 and 2 may give another A; either is taken (DESIGN CHOICE, safe: log 15).  Q is as the items say. -/
def fadOrdered (x y : Word) (t : AugT) (big small : Unpacked) (d : Nat) : FpResult :=
  if big.coef = 0 ∧ small.coef ≠ 0 ∧ Config.fadZeroGivesOther x y t = true then
    finishFp .add x y t small.neg (normalize small.exponent small.coef t.t1) (fadQ x y small d)
  else if small.coef = 0 ∧ big.coef ≠ 0 ∧ Config.fadZeroGivesOther x y t = true then
    finishFp .add x y t big.neg (normalize big.exponent big.coef t.t1) (fadQ x y small d)
  else fadAligned x y t big small d

/-- `FpArith(FAD, x, y, t)` (R220). -/
def fad (x y : Word) (t : AugT) : FpResult :=
  let u := unpack x
  let v := unpack y
  if u.odd || v.odd then oddFp .add x y t
  else if u.exponent ≥ v.exponent then fadOrdered x y t u v (u.exponent - v.exponent).toNat
  else fadOrdered x y t v u (v.exponent - u.exponent).toNat

/-- `FpArith(FSB, x, y, t)`: FAD of the complement (R222). -/
def fsb (x y : Word) (t : AugT) : FpResult := fad x (~~~y) t

/-- `FpArith(FMU, x, y, t)` (R224). -/
def fmu (x y : Word) (t : AugT) : FpResult :=
  let u := unpack x
  let v := unpack y
  if u.coef = 0 ∨ v.coef = 0 then zeroFp (u.neg ^^ v.neg)
  else if u.odd || v.odd then oddFp .mul x y t
  else
    let low := u.coef * v.coef % 2 ^ 36
    let high := u.coef * v.coef / 2 ^ 36 + (if !t.t0 && decide (low ≥ 2 ^ 35) then 1 else 0)
    finishFp .mul x y t (u.neg ^^ v.neg) (normalize (u.exponent + v.exponent) high t.t1)
      (BitVec.ofNat 48 (low * 2 ^ 12))

/-- The scaling of the dividend coefficient: 35 places, or free to be 36 where the quotient still fits (R228 step G). -/
def fdvPlaces (x y : Word) (u v : Unpacked) : Nat :=
  if u.coef < v.coef && Config.fdvFullQuotient x y then 36 else 35

/-- `FpArith(FDV, x, y, t)` (R226). -/
def fdv (x y : Word) (t : AugT) : FpResult :=
  let u := unpack x
  let v := unpack y
  if u.coef = 0 then zeroFp (u.neg ^^ v.neg)
  else if v.coef = 0 ∨ u.coef ≥ 2 * v.coef then
    { a := Config.fpDivFaultA x y t, q := Config.fpDivFaultQ x y t,
      divideFault := true, overflow := false, underflow := false }
  else if u.odd || v.odd then oddFp .div x y t
  else
    let places := fdvPlaces x y u v
    let quot := u.coef * 2 ^ places / v.coef
    let rem := u.coef * 2 ^ places % v.coef
    let rounded := quot + (if !t.t0 && decide (2 * rem ≥ v.coef) then 1 else 0)
    finishFp .div x y t (u.neg ^^ v.neg)
      (normalize (u.exponent - v.exponent + (36 - places : Nat)) rounded t.t1) (BitVec.ofNat 48 rem)

/-- The designators that condition the instruction (R217). -/
def State.designators (s : State) : AugT := if s.augPending then s.augT else AugT.zero

/-- A and Q written and the faults OR-ed into IR bits 2, 4 and 5 (R212, R219). -/
def State.applyFp (s : State) (r : FpResult) : State :=
  { ((s.divideFault r.divideFault).exponentOverflow r.overflow).exponentUnderflow r.underflow with
    a := r.a, q := r.q }

/-- The skeleton of the four instructions: without the option the Category II interrupt comes first (R218, R219). -/
def State.floating (s : State) (low : BitVec 2) (b : Desig) (m : Addr) (f : Word → Word → AugT → FpResult) : Result :=
  if s.config.floatingOption then
    s.withOperand b m (fun s1 x => .next (s1.applyFp (f s1.a (s1.augmented x) s1.designators)).next24)
  else s.cat2Entry low

/-- FAD (R220). -/
def execFad (b : Desig) (m : Addr) (s : State) : Result := s.floating 0 b m fad

/-- FSB (R222). -/
def execFsb (b : Desig) (m : Addr) (s : State) : Result := s.floating 1 b m fsb

/-- FMU (R224). -/
def execFmu (b : Desig) (m : Addr) (s : State) : Result := s.floating 2 b m fmu

/-- FDV (R226). -/
def execFdv (b : Desig) (m : Addr) (s : State) : Result := s.floating 3 b m fdv

end Sys2Proof.Machine
end

