-- ==== Sys2Proof/Machine/Illegal.lean ====
section
/-! DEFINITION. The illegal codes, which take the Category III interrupt (30_encoding R102, 60_exceptions R442), and the
two undefined ones, to which the spec gives no meaning (R111). -/

namespace Sys2Proof.Machine

/-- f = 00 other than IAQ and ATI (R100). -/
def execIllegal00 (_rest : BitVec 18) (s : State) : Result := s.illegal

/-- f = 26 (R102). -/
def execIllegal26 (_rest : BitVec 18) (s : State) : Result := s.illegal

/-- f = 27 (R102). -/
def execIllegal27 (_rest : BitVec 18) (s : State) : Result := s.illegal

/-- f = 62 (R102). -/
def execIllegal62 (_rest : BitVec 18) (s : State) : Result := s.illegal

/-- f = 63 that is no character instruction and no bank jump (R104). -/
def execIllegal63 (_rest : BitVec 42) (s : State) : Result := s.illegal

/-- 74.7, in either half (R102). -/
def execIllegal747 (_rest : Rest747) (s : State) : Result := s.illegal

/-- 77.7 (R102). -/
def execIllegal777 (_y : Addr) (s : State) : Result := s.illegal

/-- 77.2 with a code other than those of CIS and CMS: no meaning (R111 item 3, U6). -/
def execUndefined772 (_y : Addr) (_s : State) : Result := .fault .undefinedCopyCode

/-- 77.4 with a code other than that of CPR: no meaning (R111 item 3, U6). -/
def execUndefined774 (_y : Addr) (_s : State) : Result := .fault .undefinedProductCode

end Sys2Proof.Machine
end

