-- ==== Sys2Proof/Machine/Internal.lean ====
section
/-! DEFINITION. INF, SEN, CIS, CMS and CPR (48_internal R350 to R372). -/

namespace Sys2Proof.Machine

/-- The channel digit of an INF or SEN code: bits 4..3 of y (R351, R353, R354, R369). -/
def codeChannel (y : Addr) : BitVec 2 := bits y 3 2

/-- A code that names a channel has no meaning when the channel is absent (R369 U13, D29). -/
def State.onChannel (s : State) (y : Addr) (k : BitVec 2 → State) : Result :=
  if s.installed (codeChannel y) then .next (k (codeChannel y)) else .fault .channelNotInstalled

/-- INF 00602, Clear Interrupt System: the I/O bits of both registers stay (R364, D28). -/
def State.clearInterruptSystem (s : State) : State :=
  { s with irff := s.irff &&& channelBits, mask := s.mask &&& channelBits, intActive := false }

/-- The effect of INF code y, one row for each of the 63 codes (R351 to R365). -/
def State.internalFunction (s : State) (y : Addr) : Result :=
  match y.toNat with
  | 0o00000 | 0o00010 | 0o00020 | 0o00030 =>
    s.onChannel y (fun x => (s.setMask (10 + x.toNat)).clearIr (10 + x.toNat))
  | 0o00001 | 0o00011 | 0o00021 | 0o00031 =>
    s.onChannel y (fun x => (s.clearMask (10 + x.toNat)).clearIr (10 + x.toNat))
  | 0o00110 => .next (s.setExit .one .lower)
  | 0o00111 => .next (s.setExit .one .upper)
  | 0o00120 => .next (s.setExit .two .lower)
  | 0o00121 => .next (s.setExit .two .upper)
  | 0o00130 => .next (s.setExit .three .lower)
  | 0o00131 => .next (s.setExit .three .upper)
  | 0o00200 | 0o00210 | 0o00220 | 0o00230 => s.onChannel y (fun x => s.setMask (30 + x.toNat))
  | 0o00201 | 0o00211 | 0o00221 | 0o00231 => s.onChannel y (fun x => s.clearMask (30 + x.toNat))
  | 0o00300 | 0o00310 | 0o00320 | 0o00330 => s.onChannel y (fun x => s.setMask (20 + x.toNat))
  | 0o00301 | 0o00311 | 0o00321 | 0o00331 => s.onChannel y (fun x => s.clearMask (20 + x.toNat))
  | 0o00400 => .next (((((s.clearIr 1).clearIr 2).clearIr 3).clearIr 4).clearIr 5)
  | 0o00410 => .next (s.setMask 1)
  | 0o00411 => .next (s.clearMask 1)
  | 0o00412 => .next (s.clearIr 1)
  | 0o00420 => .next (s.setMask 2)
  | 0o00421 => .next (s.clearMask 2)
  | 0o00422 => .next (s.clearIr 2)
  | 0o00430 => .next (s.setMask 3)
  | 0o00431 => .next (s.clearMask 3)
  | 0o00432 => .next (s.clearIr 3)
  | 0o00440 => .next (s.setMask 4)
  | 0o00441 => .next (s.clearMask 4)
  | 0o00442 => .next (s.clearIr 4)
  | 0o00450 => .next (s.setMask 5)
  | 0o00451 => .next (s.clearMask 5)
  | 0o00452 => .next (s.clearIr 5)
  | 0o00500 => .next (s.setMask 44)
  | 0o00501 => .next ((s.clearMask 44).clearIr 44)
  | 0o00510 => .next ((s.setMask 43).clearIr 43)
  | 0o00511 => .next ((s.clearMask 43).clearIr 43)
  | 0o00520 => .next (s.setMask 45)
  | 0o00521 => .next (s.clearMask 45)
  | 0o00522 => .next (s.clearIr 45)
  | 0o00530 => .next (s.setMask 46)
  | 0o00531 => .next (s.clearMask 46)
  | 0o00532 => .next (s.clearIr 46)
  | 0o00540 => .next ((s.setMask 42).clearIr 42)
  | 0o00541 => .next ((s.clearMask 42).clearIr 42)
  | 0o00600 => .next { s with intActive := true }
  | 0o00601 => .next { s with intActive := false }
  | 0o00602 => .next s.clearInterruptSystem
  | 0o00610 => .next { s with lockout := true }
  | 0o00611 => .next { s with lockout := false }
  | _ => .fault .undefinedInternalFunction

/-- What follows an effect that cannot be refused by name. -/
def Result.thenNext24 (r : Result) : Result :=
  match r with
  | .next s => .next s.next24
  | .fault f => .fault f
  | .refused x => .refused x

/-- INF (R350): illegal while locked. -/
def execInf (y : Addr) (s : State) : Result :=
  if s.locked then s.illegal else Result.thenNext24 (s.internalFunction y)

/-- `sense(y)` (R369); none for a code that is in no row. -/
def State.sense (s : State) (y : Addr) : Option Bool :=
  let x := codeChannel y
  match y.toNat with
  | 0o00000 | 0o00010 | 0o00020 | 0o00030 => some (!(s.installed x && (s.channel x).active))
  | 0o00001 | 0o00011 | 0o00021 | 0o00031 => some (s.installed x && (s.channel x).active)
  | 0o00110 => some (decide (s.exit1 = .lower))
  | 0o00111 => some (decide (s.exit1 = .upper))
  | 0o00120 => some (decide (s.exit2 = .lower))
  | 0o00121 => some (decide (s.exit2 = .upper))
  | 0o00130 => some (decide (s.exit3 = .lower))
  | 0o00131 => some (decide (s.exit3 = .upper))
  | 0o00210 => some s.mode1
  | 0o00211 => some (!s.mode1)
  | 0o00220 => some s.mode2
  | 0o00221 => some (!s.mode2)
  | 0o00230 => some s.mode3
  | 0o00231 => some (!s.mode3)
  | _ => none

/-- SEN: a pass in the lower half, whatever y is (R367, R368). -/
def execSen (y : Addr) (s : State) : Result :=
  match s.half with
  | .lower => .next s.next24
  | .upper =>
    match s.sense y with
    | some c => .next (s.skipIf c)
    | none => .fault .undefinedSense

/-- CIS (R370). -/
def execCis (s : State) : Result := .next ({ s with a := s.ir } : State).next24

/-- CMS (R371). -/
def execCms (s : State) : Result := .next ({ s with a := s.maskView } : State).next24

/-- CPR (R372). -/
def execCpr (s : State) : Result := .next ({ s with a := s.prod } : State).next24

end Sys2Proof.Machine
end

