-- ==== Sys2Proof/Machine/Jumps.lean ====
section
/-! DEFINITION. Jumps, stops, return jumps and bank jumps (46_jumps R300 to R323). -/

namespace Sys2Proof.Machine

/-- A normal jump to m on a condition (R300). -/
def State.jumpIf (s : State) (c : Bool) (m : Addr) : Result := if c then s.jumpTo true m else .next s.next24

/-- A return jump to m on a condition (R314). -/
def State.returnJumpIf (s : State) (c : Bool) (m : Addr) : Result := if c then s.returnJump m else .next s.next24

/-- The stop of f = 76, then on Go the jump without a second test (R310). -/
def State.stopThen (s : State) (c : Bool) (jump : Result) : Result :=
  if c && !s.slsStopped then .next { s with running := false, slsStopped := true, stopRequest := false } else jump

/-- A Stop switch acts only in Maintenance Mode (R310). -/
def State.stopSwitch (s : State) (on : Bool) : Bool := s.console.maintenance && on

/-- AJP (R302, R303). -/
def execAjp (c : BitVec 2) (m : Addr) (s : State) : Result := s.jumpIf (condition c s.a) m

/-- QJP (R302, R304). -/
def execQjp (c : BitVec 2) (m : Addr) (s : State) : Result := s.jumpIf (condition c s.q) m

/-- ARJ (R302, R315). -/
def execArj (c : BitVec 2) (m : Addr) (s : State) : Result := s.returnJumpIf (condition c s.a) m

/-- QRJ (R302, R316). -/
def execQrj (c : BitVec 2) (m : Addr) (s : State) : Result := s.returnJumpIf (condition c s.q) m

/-- IJP: a bounds fault leaves the index register unreduced (R305). -/
def execIjp (b : Desig) (m : Addr) (s : State) : Result :=
  s.resolve b m
    (if s.b b = 0 then .next s.next24
     else if s.outOfBounds m then s.boundsFault
     else .next ((s.setB b (s.b b - 1)).transfer true m .upper))

/-- SLJ (R306). -/
def execSlj (m : Addr) (s : State) : Result := s.jumpIf true m

/-- SJ1 (R306). -/
def execSj1 (m : Addr) (s : State) : Result := s.jumpIf s.console.jump1 m

/-- SJ2 (R306). -/
def execSj2 (m : Addr) (s : State) : Result := s.jumpIf s.console.jump2 m

/-- SJ3 (R306). -/
def execSj3 (m : Addr) (s : State) : Result := s.jumpIf s.console.jump3 m

/-- RTJ (R317). -/
def execRtj (m : Addr) (s : State) : Result := s.returnJumpIf true m

/-- RJ1 (R317). -/
def execRj1 (m : Addr) (s : State) : Result := s.returnJumpIf s.console.jump1 m

/-- RJ2 (R317). -/
def execRj2 (m : Addr) (s : State) : Result := s.returnJumpIf s.console.jump2 m

/-- RJ3 (R317). -/
def execRj3 (m : Addr) (s : State) : Result := s.returnJumpIf s.console.jump3 m

/-- SLS (R310). -/
def execSls (m : Addr) (s : State) : Result := s.stopThen true (s.jumpTo true m)

/-- SS1 (R310). -/
def execSs1 (m : Addr) (s : State) : Result := s.stopThen (s.stopSwitch s.console.stop1) (s.jumpTo true m)

/-- SS2 (R310). -/
def execSs2 (m : Addr) (s : State) : Result := s.stopThen (s.stopSwitch s.console.stop2) (s.jumpTo true m)

/-- SS3 (R310). -/
def execSs3 (m : Addr) (s : State) : Result := s.stopThen (s.stopSwitch s.console.stop3) (s.jumpTo true m)

/-- SRJ (R318). -/
def execSrj (m : Addr) (s : State) : Result := s.stopThen true (s.returnJump m)

/-- SR1 (R318). -/
def execSr1 (m : Addr) (s : State) : Result := s.stopThen (s.stopSwitch s.console.stop1) (s.returnJump m)

/-- SR2 (R318). -/
def execSr2 (m : Addr) (s : State) : Result := s.stopThen (s.stopSwitch s.console.stop2) (s.returnJump m)

/-- SR3 (R318). -/
def execSr3 (m : Addr) (s : State) : Result := s.stopThen (s.stopSwitch s.console.stop3) (s.returnJump m)

/-- The modified address of a bank jump; b = 7 takes one indirect level (R321). -/
def State.bankEffective (s : State) (b : Desig) (m : Addr) (jump : Desig → Addr → Instr) (k : Addr → Result) : Result :=
  if b = 7 then s.bankIndirect m jump else k (s.modified b m)

/-- UBJP (R321). -/
def execUbjp (b : Desig) (m : Addr) (s : State) : Result := s.bankEffective b m .ubjp (fun t => s.jumpTo false t)

/-- BRTJ: a UBJP to P + 1 is stored at M and execution goes on at M + 1 (R322). -/
def execBrtj (b : Desig) (m : Addr) (s : State) : Result :=
  s.bankEffective b m .brtj (fun t =>
    if s.outOfBounds t || s.outOfBounds (t + 1) then s.boundsFault
    else s.writeWord t (mkUbjp s.config.layouts.bank (s.p + 1))
      (fun s1 => .next (s1.transfer false (t + 1) .upper)))

/-- BJPL: to the lower half of M (R323). -/
def execBjpl (b : Desig) (m : Addr) (s : State) : Result :=
  s.bankEffective b m .bjpl (fun t =>
    if s.outOfBounds t then s.boundsFault else .next (s.transfer false t .lower))

end Sys2Proof.Machine
end

