-- ==== Sys2Proof/Machine/Logical.lean ====
section
/-! DEFINITION. Logical instructions (44_logical_shift R241 to R248). -/

namespace Sys2Proof.Machine

/-- SST (R241). -/
def execSst (b : Desig) (m : Addr) (s : State) : Result :=
  s.withOperand b m (fun s1 x => .next ({ s1 with a := s1.a ||| x } : State).next24)

/-- SCL (R242). -/
def execScl (b : Desig) (m : Addr) (s : State) : Result :=
  s.withOperand b m (fun s1 x => .next ({ s1 with a := s1.a &&& ~~~x } : State).next24)

/-- SCM (R243). -/
def execScm (b : Desig) (m : Addr) (s : State) : Result :=
  s.withOperand b m (fun s1 x => .next ({ s1 with a := s1.a ^^^ x } : State).next24)

/-- SSU (R244). -/
def execSsu (b : Desig) (m : Addr) (s : State) : Result :=
  s.withOperand b m (fun s1 x =>
    .next ({ s1 with a := (s1.a &&& ~~~s1.q) ||| (x &&& s1.q) } : State).next24)

/-- LDL (R245). -/
def execLdl (b : Desig) (m : Addr) (s : State) : Result :=
  s.withOperand b m (fun s1 x => .next ({ s1 with a := s1.q &&& x } : State).next24)

/-- ADL (R246). -/
def execAdl (b : Desig) (m : Addr) (s : State) : Result :=
  s.withOperand b m (fun s1 x => .next (s1.addToA (s1.q &&& x)).next24)

/-- SBL (R247). -/
def execSbl (b : Desig) (m : Addr) (s : State) : Result :=
  s.withOperand b m (fun s1 x => .next (s1.addToA (~~~(s1.q &&& x))).next24)

/-- STL (R248). -/
def execStl (b : Desig) (m : Addr) (s : State) : Result := s.storeAt b m (s.q &&& s.a)

end Sys2Proof.Machine
end

