-- ==== Sys2Proof/Machine/Replace.lean ====
section
/-! DEFINITION. Replace and storage test instructions (45_replace_test_search R270 to R276). -/

namespace Sys2Proof.Machine

/-- The sum of two words into A and back to storage, with the overflow fault; a read and a write of the same word with a
slot between them (R270). -/
def State.replaceSum (s : State) (b : Desig) (m : Addr) (x y : State → Word → Word) : Result :=
  s.effective b m (fun a =>
    s.replace a
      (fun s1 w =>
        ({ s1.overflowFault (overflow48 (x s1 w) (y s1 w)) with a := add48 (x s1 w) (y s1 w) },
          add48 (x s1 w) (y s1 w)))
      (fun s2 => .next s2.next24))

/-- RAD (R271). -/
def execRad (b : Desig) (m : Addr) (s : State) : Result :=
  s.replaceSum b m (fun _ w => w) (fun s1 _ => s1.a)

/-- RSB: storage minus A (R272). -/
def execRsb (b : Desig) (m : Addr) (s : State) : Result :=
  s.replaceSum b m (fun _ w => w) (fun s1 _ => ~~~s1.a)

/-- RAO (R273). -/
def execRao (b : Desig) (m : Addr) (s : State) : Result :=
  s.replaceSum b m (fun _ w => w) (fun _ _ => 1)

/-- RSO (R274). -/
def execRso (b : Desig) (m : Addr) (s : State) : Result :=
  s.replaceSum b m (fun _ w => w) (fun _ _ => 0o7777777777777776)

/-- SSK: in the lower half the word is still read (R275, D22). -/
def execSsk (b : Desig) (m : Addr) (s : State) : Result :=
  s.withOperand b m (fun s1 x => .next (s1.skipIf x.msb))

/-- SSH: the sign sensed is the one before the rotation (R276).  The skip is decided by the word that was read. -/
def execSsh (b : Desig) (m : Addr) (s : State) : Result :=
  s.effective b m (fun a =>
    if s.outOfBounds a then s.boundsFault
    else s.readOperand a (fun s1 x => s1.writeWord a (rotl x 1) (fun s2 => .next (s2.skipIf x.msb))))

end Sys2Proof.Machine
end

