-- ==== Sys2Proof/Machine/Search.lean ====
section
/-! DEFINITION. Storage searches (45_replace_test_search R280 to R285).  One step is one iteration, because an interrupt
can come between two iterations (60_exceptions R448 point P6). -/

namespace Sys2Proof.Machine

/-- After an iteration has read x: a hit skips, an exhausted count ends without a skip, else the search goes on
(R281). -/
def State.searchEnd (s : State) (b : Desig) (found : Bool) : State :=
  if found then s.skipIf true else if s.b b = 0 then s.next24 else s.again .search

/-- One iteration of a search (R281): with b = 0 only the word at m, else the word at m + (B^b - 1). -/
def State.search (s : State) (b : Desig) (m : Addr) (hit : State → Word → Bool) : Result :=
  s.resolve b m
    (if b = 0 then s.readOperand m (fun s1 x => .next (s1.skipIf (hit s1 x)))
     else if s.b b = 0 then .next s.next24
     else (s.setB b (s.b b - 1)).readOperand (add15 m (s.b b - 1))
       (fun s1 x => .next (s1.searchEnd b (hit s1 x))))

/-- EQS (R282). -/
def execEqs (b : Desig) (m : Addr) (s : State) : Result := s.search b m (fun s1 x => decide (x = s1.a))

/-- THS (R283). -/
def execThs (b : Desig) (m : Addr) (s : State) : Result := s.search b m (fun s1 x => gt48 x s1.a)

/-- MEQ (R284). -/
def execMeq (b : Desig) (m : Addr) (s : State) : Result :=
  s.search b m (fun s1 x => decide (s1.q &&& x = s1.a))

/-- MTH (R285). -/
def execMth (b : Desig) (m : Addr) (s : State) : Result := s.search b m (fun s1 x => gt48 (s1.q &&& x) s1.a)

end Sys2Proof.Machine
end

