-- ==== Sys2Proof/Machine/Shift.lean ====
section
/-! DEFINITION. Shifts and scales (44_logical_shift R250 to R262). -/

namespace Sys2Proof.Machine

/-- AQ as one 96-bit register (R23, R252). -/
def State.aq (s : State) : BitVec 96 := s.a ++ s.q

/-- AQ <- v (R252). -/
def State.setAQ (s : State) (v : BitVec 96) : State := { s with a := bits v 48 48, q := bits v 0 48 }

/-- A shift by K with its limit: a larger count sets the shift fault and shifts nothing (R250, R251). -/
def State.shift (s : State) (b : Desig) (k : Addr) (limit : Nat) (f : Nat → State) : Result :=
  s.effective b k (fun v => .next (if v.toNat > limit then s.shiftFault else f v.toNat).next24)

/-- ARS (R253). -/
def execArs (b : Desig) (k : Addr) (s : State) : Result :=
  s.shift b k 48 (fun n => { s with a := sar s.a n })

/-- QRS (R254). -/
def execQrs (b : Desig) (k : Addr) (s : State) : Result :=
  s.shift b k 48 (fun n => { s with q := sar s.q n })

/-- LRS (R255). -/
def execLrs (b : Desig) (k : Addr) (s : State) : Result :=
  s.shift b k 96 (fun n => s.setAQ (sar s.aq n))

/-- ALS (R256). -/
def execAls (b : Desig) (k : Addr) (s : State) : Result :=
  s.shift b k 48 (fun n => { s with a := rotl s.a n })

/-- QLS (R257). -/
def execQls (b : Desig) (k : Addr) (s : State) : Result :=
  s.shift b k 48 (fun n => { s with q := rotl s.q n })

/-- LLS (R258). -/
def execLls (b : Desig) (k : Addr) (s : State) : Result :=
  s.shift b k 96 (fun n => s.setAQ (rotl s.aq n))

/-- The scaling loop: rotate left while the two top bits agree and the low seven bits of the count are not zero; at most
`fuel` places (R260, R261). -/
def scale {n : Nat} (fuel : Nat) (x : BitVec n) (c : Addr) : BitVec n × Addr :=
  match fuel with
  | 0 => (x, c)
  | fuel + 1 =>
    if x.getLsbD (n - 1) = x.getLsbD (n - 2) ∧ bits c 0 7 ≠ 0 then scale fuel (rotl x 1) (c - 1) else (x, c)

/-- A scale of the register x with count k: nothing is shifted when x is a zero (R260 note 4).  The low seven bits of k
allow at most 127 places. -/
def scaled {n : Nat} (x : BitVec n) (k : Addr) : BitVec n × Addr :=
  if x = 0 ∨ x = BitVec.allOnes n then (x, k) else scale 127 x k

/-- SCA: with b = 0 the scale factor is lost (R260, R261). -/
def execSca (b : Desig) (k : Addr) (s : State) : Result :=
  s.resolve b k (.next (({ s with a := (scaled s.a k).1 } : State).setB b (scaled s.a k).2).next24)

/-- SCQ (R262). -/
def execScq (b : Desig) (k : Addr) (s : State) : Result :=
  s.resolve b k (.next ((s.setAQ (scaled s.aq k).1).setB b (scaled s.aq k).2).next24)

end Sys2Proof.Machine
end

