-- ==== Sys2Proof/Machine/Transmission.lean ====
section
/-! DEFINITION. Inter-register, full-word and address transmission (41_transmission R151 to R167). -/

namespace Sys2Proof.Machine

/-- IAQ (R151). -/
def execIaq (s : State) : Result := .next ({ s with a := s.q, q := s.a } : State).next24

/-- ATI (R167). -/
def execAti (b : Desig) (s : State) : Result := .next (s.setB b (bits s.a 0 15)).next24

/-- LDA (R152, t2 by R169). -/
def execLda (b : Desig) (m : Addr) (s : State) : Result :=
  s.withOperand b m (fun s1 x => .next ({ s1 with a := s1.augmented x } : State).next24)

/-- LAC (R153). -/
def execLac (b : Desig) (m : Addr) (s : State) : Result :=
  s.withOperand b m (fun s1 x => .next ({ s1 with a := ~~~x } : State).next24)

/-- LDQ (R154, t2 by R169). -/
def execLdq (b : Desig) (m : Addr) (s : State) : Result :=
  s.withOperand b m (fun s1 x => .next ({ s1 with q := s1.augmented x } : State).next24)

/-- LQC (R155). -/
def execLqc (b : Desig) (m : Addr) (s : State) : Result :=
  s.withOperand b m (fun s1 x => .next ({ s1 with q := ~~~x } : State).next24)

/-- STA (R156, t2 by R169). -/
def execSta (b : Desig) (m : Addr) (s : State) : Result := s.storeAt b m (s.augmented s.a)

/-- STQ (R157, t2 by R169). -/
def execStq (b : Desig) (m : Addr) (s : State) : Result := s.storeAt b m (s.augmented s.q)

/-- LIU: with b = 0 the storage reference is still made (R158). -/
def execLiu (b : Desig) (m : Addr) (s : State) : Result :=
  s.resolve b m (s.readOperand m (fun s1 w => .next (s1.setB b (bits w 24 15)).next24))

/-- LIL (R159). -/
def execLil (b : Desig) (m : Addr) (s : State) : Result :=
  s.resolve b m (s.readOperand m (fun s1 w => .next (s1.setB b (bits w 0 15)).next24))

/-- SIU: with b = 0 the upper address is cleared (R160). -/
def execSiu (b : Desig) (m : Addr) (s : State) : Result :=
  s.resolve b m (s.storeField m 24 (s.b b) (fun s1 => .next s1.next24))

/-- SIL: with b = 0 the lower address is cleared (R161). -/
def execSil (b : Desig) (m : Addr) (s : State) : Result :=
  s.resolve b m (s.storeField m 0 (s.b b) (fun s1 => .next s1.next24))

/-- SAU (R162). -/
def execSau (b : Desig) (m : Addr) (s : State) : Result :=
  s.effective b m (fun a => s.storeField a 24 (bits s.a 0 15) (fun s1 => .next s1.next24))

/-- SAL (R163). -/
def execSal (b : Desig) (m : Addr) (s : State) : Result :=
  s.effective b m (fun a => s.storeField a 0 (bits s.a 0 15) (fun s1 => .next s1.next24))

/-- ENQ (R164). -/
def execEnq (b : Desig) (y : Addr) (s : State) : Result :=
  s.effective b y (fun v => .next ({ s with q := sext15 v } : State).next24)

/-- ENA (R165). -/
def execEna (b : Desig) (y : Addr) (s : State) : Result :=
  s.effective b y (fun v => .next ({ s with a := sext15 v } : State).next24)

/-- ENI: with b = 0 a pass (R166). -/
def execEni (b : Desig) (y : Addr) (s : State) : Result :=
  s.resolve b y (.next (s.setB b y).next24)

end Sys2Proof.Machine
end

