-- ==== Sys2Proof/Machine/Dispatch.lean ====
section
/-! DEFINITION. One arm for each instruction. -/

namespace Sys2Proof.Machine

def exec (i : Instr) (s : State) : Host.Outcome State Fault Refusal :=
  match i with
  | .iaq => Sys2Proof.Machine.execIaq s
  | .ati b => Sys2Proof.Machine.execAti b s
  | .illegal00 rest => Sys2Proof.Machine.execIllegal00 rest s
  | .ars b k => Sys2Proof.Machine.execArs b k s
  | .qrs b k => Sys2Proof.Machine.execQrs b k s
  | .lrs b k => Sys2Proof.Machine.execLrs b k s
  | .enq b y => Sys2Proof.Machine.execEnq b y s
  | .als b k => Sys2Proof.Machine.execAls b k s
  | .qls b k => Sys2Proof.Machine.execQls b k s
  | .lls b k => Sys2Proof.Machine.execLls b k s
  | .ena b y => Sys2Proof.Machine.execEna b y s
  | .ina b y => Sys2Proof.Machine.execIna b y s
  | .lda b m => Sys2Proof.Machine.execLda b m s
  | .lac b m => Sys2Proof.Machine.execLac b m s
  | .add b m => Sys2Proof.Machine.execAdd b m s
  | .sub b m => Sys2Proof.Machine.execSub b m s
  | .ldq b m => Sys2Proof.Machine.execLdq b m s
  | .lqc b m => Sys2Proof.Machine.execLqc b m s
  | .sta b m => Sys2Proof.Machine.execSta b m s
  | .stq b m => Sys2Proof.Machine.execStq b m s
  | .ajp c m => Sys2Proof.Machine.execAjp c m s
  | .arj c m => Sys2Proof.Machine.execArj c m s
  | .qjp c m => Sys2Proof.Machine.execQjp c m s
  | .qrj c m => Sys2Proof.Machine.execQrj c m s
  | .mui b m => Sys2Proof.Machine.execMui b m s
  | .dvi b m => Sys2Proof.Machine.execDvi b m s
  | .illegal26 rest => Sys2Proof.Machine.execIllegal26 rest s
  | .illegal27 rest => Sys2Proof.Machine.execIllegal27 rest s
  | .fad b m => Sys2Proof.Machine.execFad b m s
  | .fsb b m => Sys2Proof.Machine.execFsb b m s
  | .fmu b m => Sys2Proof.Machine.execFmu b m s
  | .fdv b m => Sys2Proof.Machine.execFdv b m s
  | .sca b k => Sys2Proof.Machine.execSca b k s
  | .scq b k => Sys2Proof.Machine.execScq b k s
  | .ssk b m => Sys2Proof.Machine.execSsk b m s
  | .ssh b m => Sys2Proof.Machine.execSsh b m s
  | .sst b m => Sys2Proof.Machine.execSst b m s
  | .scl b m => Sys2Proof.Machine.execScl b m s
  | .scm b m => Sys2Proof.Machine.execScm b m s
  | .ssu b m => Sys2Proof.Machine.execSsu b m s
  | .ldl b m => Sys2Proof.Machine.execLdl b m s
  | .adl b m => Sys2Proof.Machine.execAdl b m s
  | .sbl b m => Sys2Proof.Machine.execSbl b m s
  | .stl b m => Sys2Proof.Machine.execStl b m s
  | .eni b y => Sys2Proof.Machine.execEni b y s
  | .ini b y => Sys2Proof.Machine.execIni b y s
  | .liu b m => Sys2Proof.Machine.execLiu b m s
  | .lil b m => Sys2Proof.Machine.execLil b m s
  | .isk b y => Sys2Proof.Machine.execIsk b y s
  | .ijp b m => Sys2Proof.Machine.execIjp b m s
  | .siu b m => Sys2Proof.Machine.execSiu b m s
  | .sil b m => Sys2Proof.Machine.execSil b m s
  | .sau b m => Sys2Proof.Machine.execSau b m s
  | .sal b m => Sys2Proof.Machine.execSal b m s
  | .illegal62 rest => Sys2Proof.Machine.execIllegal62 rest s
  | .ldch b v m => Sys2Proof.Machine.execLdch b v m s
  | .stch b v m => Sys2Proof.Machine.execStch b v m s
  | .ubjp b m => Sys2Proof.Machine.execUbjp b m s
  | .brtj b m => Sys2Proof.Machine.execBrtj b m s
  | .bjpl b m => Sys2Proof.Machine.execBjpl b m s
  | .illegal63 rest => Sys2Proof.Machine.execIllegal63 rest s
  | .eqs b m => Sys2Proof.Machine.execEqs b m s
  | .ths b m => Sys2Proof.Machine.execThs b m s
  | .meq b m => Sys2Proof.Machine.execMeq b m s
  | .mth b m => Sys2Proof.Machine.execMth b m s
  | .rad b m => Sys2Proof.Machine.execRad b m s
  | .rsb b m => Sys2Proof.Machine.execRsb b m s
  | .rao b m => Sys2Proof.Machine.execRao b m s
  | .rso b m => Sys2Proof.Machine.execRso b m s
  | .conn x c n => Sys2Proof.Machine.execConn x c n s
  | .extf x c n => Sys2Proof.Machine.execExtf x c n s
  | .begr x m n => Sys2Proof.Machine.execBegr x m n s
  | .begw x m n => Sys2Proof.Machine.execBegw x m n s
  | .copy x => Sys2Proof.Machine.execCopy x s
  | .clch x => Sys2Proof.Machine.execClch x s
  | .ccwd x n => Sys2Proof.Machine.execCcwd x n s
  | .illegal747 rest => Sys2Proof.Machine.execIllegal747 rest s
  | .slj m => Sys2Proof.Machine.execSlj m s
  | .sj1 m => Sys2Proof.Machine.execSj1 m s
  | .sj2 m => Sys2Proof.Machine.execSj2 m s
  | .sj3 m => Sys2Proof.Machine.execSj3 m s
  | .rtj m => Sys2Proof.Machine.execRtj m s
  | .rj1 m => Sys2Proof.Machine.execRj1 m s
  | .rj2 m => Sys2Proof.Machine.execRj2 m s
  | .rj3 m => Sys2Proof.Machine.execRj3 m s
  | .sls m => Sys2Proof.Machine.execSls m s
  | .ss1 m => Sys2Proof.Machine.execSs1 m s
  | .ss2 m => Sys2Proof.Machine.execSs2 m s
  | .ss3 m => Sys2Proof.Machine.execSs3 m s
  | .srj m => Sys2Proof.Machine.execSrj m s
  | .sr1 m => Sys2Proof.Machine.execSr1 m s
  | .sr2 m => Sys2Proof.Machine.execSr2 m s
  | .sr3 m => Sys2Proof.Machine.execSr3 m s
  | .inf y => Sys2Proof.Machine.execInf y s
  | .aug y => Sys2Proof.Machine.execAug y s
  | .cis => Sys2Proof.Machine.execCis s
  | .cms => Sys2Proof.Machine.execCms s
  | .sen y => Sys2Proof.Machine.execSen y s
  | .cpr => Sys2Proof.Machine.execCpr s
  | .eub y => Sys2Proof.Machine.execEub y s
  | .elb y => Sys2Proof.Machine.execElb y s
  | .undefined772 y => Sys2Proof.Machine.execUndefined772 y s
  | .undefined774 y => Sys2Proof.Machine.execUndefined774 y s
  | .illegal777 y => Sys2Proof.Machine.execIllegal777 y s

end Sys2Proof.Machine
end

