-- ==== Sys2Proof/Machine/Cycle.lean ====
section
/-! DEFINITION. The basic cycle: interrupt points, Read Next Instruction, decoding and execution, and the moves of the
other agents (40_sequencing R121, 60_exceptions R448). -/

namespace Sys2Proof.Machine

/-- After the word at P is in U: an instruction parity error interrupts at once when it can, else it stops the computer
(R418). -/
def State.fetched (s : State) (k : State → Result) : Result :=
  if s.p ∈ s.badParity then
    if s.intActive && s.selected 46 && !s.mode1 then (s.loadStep.setIr 46).cat1Interrupt s.p .upper
    else .next { s.loadStep.setIr 46 with running := false, half := .upper, stopRequest := false }
  else k s.loadStep

/-- Read Next Instruction (R121, R69); a word out of bounds is not read (R439). -/
def State.fetch (s : State) (k : State → Result) : Result :=
  if s.outOfBounds s.p then (s.setIr 42).cat1Interrupt s.p .upper
  else if s.hasWord s.p then s.slot (fun s1 => s1.fetched k)
  else .fault .noSuchStorage

/-- The computer stops with what has been done. -/
def Result.stopped (r : Result) : Result :=
  match r with
  | .next s => .next { s with running := false }
  | .fault f => .fault f
  | .refused x => .refused x

/-- In Step Mode the computer stops after the instruction, with the next word read; also when that read makes a Category
I entry (R473; DEDUCED, unsafe: log 22).  A search that goes on and a CCWD that waits are not stopped. -/
def State.afterStep (s : State) (r : Result) : Result :=
  if s.console.stepMode then
    match r with
    | .next s1 =>
      if decide (s1.progress = .search) || s1.ccwdWait.isSome then .next s1
      else if s1.running && s1.needRni then Result.stopped (s1.fetch .next)
      else .next { s1 with running := false }
    | .fault f => .fault f
    | .refused x => .refused x
  else r

/-- The instruction at `half` of U is executed (R97, R121), or a bank jump goes on with its local values (R134). -/
def State.execute (s : State) : Result :=
  match s.resumed with
  | some i => s.afterStep (exec i s)
  | none =>
    match decode s.config.layouts s.half s.u with
    | .instr i => s.afterStep (exec i s)
    | .refused .fortyEightBitCodeInLowerHalf => .fault .fortyEightBitCodeInLowerHalf

/-- The interrupt point after a fetch, then the instruction (R448). -/
def State.sampleAndExecute (s : State) : Result :=
  if s.cat1Ready then s.cat1Interrupt s.p s.resumeHalf else s.execute

/-- In Step Mode the step is only the read of the next word: an Internal Master Clear came before, or CCWD has ended its
wait (R473 case 1). -/
def State.readsOnly (s : State) : Bool := s.console.stepMode && s.stopAfterRead && s.needRni

/-- The program's turn: a Restart that waited for the end of an instruction; nothing while it is stopped or waits on
CCWD; else an interrupt point, the stop of an instruction that never ends, the fetch when U does not hold the step at
P, a second interrupt point, and one instruction (or one indirect level, or one search iteration). A Category I entry
at an interrupt point, or by the fetch before an instruction, is no step of Step Mode (DEDUCED, unsafe: log 22).  The
entry at the first interrupt point is the turn's first reference: what falls before it are the moves before the turn. -/
def State.program (s : State) : Result :=
  if s.restartRequest && s.atBoundary then .next s.restart
  else if !s.running || s.ccwdWait.isSome then .next s
  else if s.console.sweepMode then s.sweep
  else if s.readsOnly then Result.stopped (s.fetch .next)
  else if s.cat1Ready then .next (s.cat1Entry s.p s.resumeHalf)
  else if s.stopRequest && s.endless then .next { s with running := false, stopRequest := false }
  else if s.needRni then s.fetch State.sampleAndExecute
  else s.execute

/-- A switch that works only while the console is live (R470). -/
def State.ifLive (s : State) (r : Result) : Result := if s.switchesLive then r else .next s

/-- One move (00_scope R10). -/
def Move.perform (m : Move) (s : State) : Result :=
  match m with
  | .compute => s.program
  | .event e => e.perform s
  | .setSwitches c => .next (s.setSwitches c)
  | .go => s.ifLive s.go
  | .testClear => s.ifLive (.next s.testClear)
  | .testGo => s.ifLive (.next (s.testRun true))
  | .testStop => s.ifLive (.next (s.testRun false))
  | .stop => s.ifLive (.next s.requestStop)
  | .restart => s.ifLive (.next s.requestRestart)
  | .autoLoad => s.ifLive s.startAutoLoad
  | .internalClear => s.ifLive (.next s.internalClear)
  | .externalClear => s.ifLive (.next s.externalClearSwitch)
  | .systemActive on => .next (s.setSystemActive on)
  | .panelWrite r v => s.ifLive (.next (s.panelWrite r v))

/-- The next move: the head of `moves`, or the program's turn when the list is empty (log 11). -/
def State.nextMove (s : State) : Result :=
  match s.moves with
  | [] => s.program
  | m :: rest => m.perform { s with moves := rest }

/-- The machine with an instruction at P, about to be fetched. -/
def State.withInstruction (s : State) (nbits w : Nat) : State :=
  { s with memory := Memory.setWord s.memory s.p (tableWord nbits w), running := true, needRni := true,
           half := .upper, moves := [], ccwdWait := none, restartRequest := false, progress := .idle, resumed := none }

end Sys2Proof.Machine
end

