-- ==== Sys2Proof/Safety.lean ====
section
/-! DEFINITION. The terms in which claims speak of good states and of a quiet environment. -/

namespace Sys2Proof.Machine

/-- No event falls inside an instruction, no word has bad parity, and no breakpoint is set: the environment leaves the
references of an instruction alone. -/
def State.Quiet (s : State) : Prop :=
  s.slots = [] ∧ s.badParity = [] ∧ s.console.breakSelect = .off ∧ s.stopRequest = false

/-- No event falls inside an instruction or an interrupt entry, and no word has bad parity. -/
abbrev State.Undisturbed (s : State) : Prop := s.slots = [] ∧ s.badParity = []

/-- What every step keeps: the memory is canonical, an augment is pending only before a lower instruction that is in U,
and outside that window its designators are 000 (R45). -/
def State.Sound (s : State) : Prop :=
  Memory.wf s.memory = true
    ∧ (s.augPending = true → s.half = .lower ∧ s.needRni = false)
    ∧ (s.augPending = false → s.augT = AugT.zero)

/-- The program is about to execute the instruction at `half` of U, or to fetch it first: it runs, waits for nothing, no
interrupt is due and no maintenance mode is on. -/
def State.Ready (s : State) : Prop :=
  s.moves = [] ∧ s.running = true ∧ s.ccwdWait = none ∧ s.console.sweepMode = false ∧ s.console.stepMode = false
    ∧ s.cat1Ready = false ∧ s.restartRequest = false

/-- The operand of an instruction with address modification can be read: the environment is quiet, the form is not
indirect, and storage has the word. -/
def State.CanRead (s : State) (b : Desig) (m : Addr) : Prop :=
  s.Quiet ∧ b ≠ 7 ∧ s.hasWord (s.modified b m) = true

/-- The word at the modified address. -/
def State.operand (s : State) (b : Desig) (m : Addr) : Word := Memory.word s.memory (s.modified b m)

/-- An instruction with address modification can store: its word exists and is not out of bounds. -/
def State.CanStore (s : State) (b : Desig) (m : Addr) : Prop :=
  s.CanRead b m ∧ s.outOfBounds (s.modified b m) = false

/-- A channel instruction is obeyed: it is not locked out, and the channel exists (R383 items 2 and 3). -/
def State.CanUse (s : State) (x : BitVec 2) : Prop := s.locked = false ∧ s.installed x = true

/-- A jump from here to m lands as the jump says: m is in bounds, and P is not at the fixed word of an interrupt, or
the jump is the lower instruction of one whose upper instruction was not passed, as at the entry of a routine (R436,
R445). -/
def State.CanJump (s : State) (m : Addr) : Prop :=
  s.outOfBounds m = false ∧ (s.fixedWord s.p = none ∨ (s.half = .lower ∧ s.passedExit ≠ some s.p))

/-- The instructions of the basic machine with indirect addressing, b = 7, that are 24 bits long (R105). -/
def indirectForms (m : Addr) : List Instr :=
  [.ars 7 m, .qrs 7 m, .lrs 7 m, .enq 7 m, .als 7 m, .qls 7 m, .lls 7 m, .ena 7 m, .ina 7 m, .lda 7 m, .lac 7 m,
    .add 7 m, .sub 7 m, .ldq 7 m, .lqc 7 m, .sta 7 m, .stq 7 m, .mui 7 m, .dvi 7 m, .sca 7 m, .scq 7 m, .ssk 7 m,
    .ssh 7 m, .sst 7 m, .scl 7 m, .scm 7 m, .ssu 7 m, .ldl 7 m, .adl 7 m, .sbl 7 m, .stl 7 m, .eni 7 m, .ini 7 m,
    .liu 7 m, .lil 7 m, .isk 7 m, .ijp 7 m, .siu 7 m, .sil 7 m, .sau 7 m, .sal 7 m, .eqs 7 m, .ths 7 m, .meq 7 m,
    .mth 7 m, .rad 7 m, .rsb 7 m, .rao 7 m, .rso 7 m]

/-- The instructions that read the word at the modified address and are always there (R105). -/
def operandForms (b : Desig) (m : Addr) : List Instr :=
  [.lda b m, .lac b m, .ldq b m, .lqc b m, .add b m, .sub b m, .mui b m, .dvi b m, .sst b m, .scl b m, .scm b m,
    .ssu b m, .ldl b m, .adl b m, .sbl b m, .ssk b m, .ssh b m, .rad b m, .rsb b m, .rao b m, .rso b m]

/-- The four instructions of the floating point option (R107). -/
def floatingForms (b : Desig) (m : Addr) : List Instr := [.fad b m, .fsb b m, .fmu b m, .fdv b m]

/-- What `f` does with good parity and IR bit 45 set beforehand, it does here, where its operand has bad parity
(R417). -/
def State.AcceptsParity (s : State) (f : State → Result) : Prop :=
  ∃ t : State, f { s.setIr 45 with badParity := [] } = .next t ∧ t.irff.getLsbD 45 = true
    ∧ f s = .next { t with badParity := s.badParity }

/-- What an operation that formed the exponent and coefficient r, with a sign and a residue q, answers: the packed
result, or a range fault when the exponent is beyond ±1023; a zero coefficient has no underflow (R213 items 5 and 6,
R214, R215). -/
def FpResult.Formed (res : FpResult) (neg : Bool) (r : Int × Nat) (q : Word) : Prop :=
  (r.2 ≠ 0 → -1023 ≤ r.1 → r.1 ≤ 1023 →
    res = { a := packFp neg r.1 r.2, q := q, divideFault := false, overflow := false, underflow := false })
    ∧ (r.2 ≠ 0 → 1023 < r.1 → res.divideFault = false ∧ res.overflow = true ∧ res.underflow = false)
    ∧ (r.2 ≠ 0 → r.1 < -1023 →
      res = { a := plus0, q := plus0, divideFault := false, overflow := false, underflow := true })
    ∧ (r.2 = 0 → (res.a = if neg then minus0 else plus0) ∧ res.q = q ∧ res.divideFault = false
      ∧ res.underflow = false ∧ (res.overflow = true ↔ 1023 < r.1))

/-- The same instruction executed n times in a row. -/
def repeatExec (i : Instr) (n : Nat) (s : State) : Result :=
  match n with
  | 0 => .next s
  | n + 1 =>
    match exec i s with
    | .next t => repeatExec i n t
    | .fault f => .fault f
    | .refused r => .refused r

/-- The state in which the Category III interrupt leaves the machine when the instruction at P is illegal (R442). -/
def State.trapped (s : State) : State :=
  ({ s with mode3 := true, exit3 := if s.augPending then .upper else s.half } : State).entered 0o00020 s.p

/-- The state in which a bounds fault of the instruction at P leaves the machine (R74, R439). -/
def State.faulted (s : State) : State :=
  ({ s.setIr 42 with mode1 := true, exit1 := if s.augPending then .upper else s.half } : State).entered 0o00007 s.p

end Sys2Proof.Machine
end

