-- ==== Sys2Proof/Certificates/Slice0/Obligations.lean ====
section
/-! DEFINITION. The statements for the provers.

A result statement gives the whole next state, so its frame is everything the equation does not write.  `next24`,
`advance`, `skipIf` and `land` are the ends of an instruction; `Obligations.EndOfInstruction` says what they write. -/

open Sys2Proof Sys2Proof.Machine

/-! ## Numbers -/

/-- R180, R182, R130, R131: the 48-bit sum is exact when there is no overflow, is negative zero only for two negative
zeros, and overflows exactly when equal signs give the other sign; the address sum is taken modulus 2^15 - 1 and is
77777 only from 77777 and 77777. -/
def Obligations.AdderSums : Prop :=
  (∀ a b : Word,
     (overflow48 a b = false → onesValue (add48 a b) = onesValue a + onesValue b)
       ∧ (add48 a b = minus0 ↔ a = minus0 ∧ b = minus0)
       ∧ (overflow48 a b = true ↔ a.msb = b.msb ∧ (add48 a b).msb ≠ a.msb))
    ∧ (∀ a b : Addr,
        (add15 a b).toNat % 32767 = (a.toNat + b.toNat) % 32767
          ∧ (add15 a b = 0o77777 ↔ a = 0o77777 ∧ b = 0o77777))

/-! ## Encoding -/

/-- Decoding what was encoded gives the instruction back, for every well-formed instruction and every choice of the open
layouts. -/
def Obligations.DecodeEncode : Prop :=
  ∀ (l : Layouts) (i : Instr), l.valid = true → i.wf l = true → decodeEncoded l (encode l i) = .instr i

/-- A 24-bit pattern that decodes is the encoding of the well-formed instruction it decodes to. -/
def Obligations.EncodeDecode : Prop :=
  ∀ (l : Layouts) (w : HalfWord) (i : Instr), decode24 w = .instr i → i.wf l = true ∧ encode l i = .half w

/-- Words of the spec's examples decode to the instructions they stand for. That 74.7 in a lower half is the illegal
instruction is no example but the model's choice (log 27, DEDUCED from R102 and U5 beside R111 and R112). -/
def Obligations.DecodeExamples : Prop :=
  decode24 0o00700554 = .instr .iaq
    ∧ decode24 0o00740542 = .instr (.ati 2)
    ∧ decode24 0o12700300 = .instr (.lda 7 0o300)
    ∧ decode24 0o14000310 = .instr (.add 0 0o310)
    ∧ decode24 0o22700300 = .instr (.arj 3 0o300)
    ∧ decode24 0o34100060 = .instr (.sca 1 0o60)
    ∧ decode24 0o55100101 = .instr (.ijp 1 0o101)
    ∧ decode24 0o75400300 = .instr (.rtj 0o300)
    ∧ decode24 0o77200001 = .instr .cms
    ∧ decode24 0o00000000 = .instr (.illegal00 0)
    ∧ decode24 0o74700005 = .instr (.illegal747 (.half 5))
    ∧ decode Layouts.atReset .upper 0o6303000650000700 = .instr (.ldch 0 3 0o700)
    ∧ decode Layouts.atReset .upper 0o6304000650500701 = .instr (.stch 0 4 0o701)

/-! ## The cycle -/

/-- A step runs the instruction decoded from the word at P, or from U when U holds the step, or the bank jump that
goes on after an indirect level; nothing else happens. The last case rests on the model's field `resumed` (log 33). -/
def Obligations.StepRunsDecoded : Prop :=
  ∀ (s : State) (i : Instr), s.Ready → s.Quiet →
    (s.needRni = true → s.hasWord s.p = true → s.outOfBounds s.p = false →
      decode s.config.layouts s.half (Memory.word s.memory s.p) = .instr i →
      step s = exec i { s with
        u := Memory.word s.memory s.p, needRni := false, stopAfterRead := false, slsStopped := false
        progress := .idle, resumed := none })
      ∧ (s.needRni = false → s.resumed = none → decode s.config.layouts s.half s.u = .instr i → step s = exec i s)
      ∧ (s.needRni = false → s.resumed = some i → step s = exec i s)

/-- What each end of an instruction writes (R122 to R127): no register, no storage, no flag. The end of CCWD's wait
(`endWait`) is an advance that in Step Mode asks for a stop after the next read (the model's field `stopAfterRead`, log
33). -/
def Obligations.EndOfInstruction : Prop :=
  ∀ (s : State) (t : Addr) (h : Half), s.console.disableAdvanceP = false →
    (s.half = .upper → s.next24 = { s with
      half := .lower, augPending := false, augT := AugT.zero, slsStopped := false,
      running := s.running && !s.stopRequest, stopRequest := false, progress := .idle, resumed := none
      passedExit := s.pass })
      ∧ (s.half = .lower → s.next24 = s.advance)
      ∧ s.advance = { s with
          p := s.p + 1, half := .upper, needRni := true, augPending := false, augT := AugT.zero, slsStopped := false,
          running := s.running && !s.stopRequest, stopRequest := false, progress := .idle, resumed := none
          passedExit := s.leave }
      ∧ s.skipIf true = s.advance ∧ s.skipIf false = s.next24
      ∧ s.endWait = { s.advance with
          ccwdWait := none
          stopAfterRead := s.stopAfterRead || (s.console.stepMode && s.running && !s.stopRequest) }
      ∧ s.land t h = { s with
          p := t, half := h, needRni := true, augPending := false, augT := AugT.zero, slsStopped := false,
          running := s.running && !s.stopRequest, stopRequest := false, progress := .idle, resumed := none
          passedExit := s.leave }

/-- R432, R436, R438, R448: a Category I interrupt that is due comes before the next instruction, which is decision D41
of R448 (log 21); its entry has good parity at the fixed word. That in Step Mode a read that is a step of its own,
`readsOnly`, comes first (R473) is the model's reading (DEDUCED, logs 22 and 33; log 32). -/
def Obligations.CategoryOneEntry : Prop :=
  ∀ s : State, s.moves = [] → s.running = true → s.ccwdWait = none → s.console.sweepMode = false →
    s.restartRequest = false → s.readsOnly = false → s.badParity = [] →
    s.intActive = true → s.mode1 = false → s.ir &&& s.maskView ≠ 0 →
    step s = .next (({ s with mode1 := true, exit1 := if s.augPending then .upper else s.half } : State).entered
      0o00007 s.p)

/-- What a return jump to the fixed word of an interrupt leaves (R436, R440, R442): the return address in the upper
address of the word, its lower instruction next, nothing else. -/
def Obligations.InterruptEntryState : Prop :=
  ∀ (s : State) (f ret : Addr), Memory.wf s.memory = true →
    ∃ mem : Memory,
      s.entered f ret = { s with
        memory := mem, p := f, half := .lower, u := Memory.word mem f, needRni := false, augPending := false
        augT := AugT.zero, slsStopped := false, running := s.running && !s.stopRequest, stopRequest := false
        stopAfterRead := false, progress := .idle, resumed := none
        passedExit := if s.passedExit = some f then none else s.passedExit }
      ∧ bits (Memory.word mem f) 24 15 = ret
      ∧ bits (Memory.word mem f) 0 24 = bits (Memory.word s.memory f) 0 24
      ∧ bits (Memory.word mem f) 39 9 = bits (Memory.word s.memory f) 39 9
      ∧ (∀ a, a ≠ f → Memory.word mem a = Memory.word s.memory a)
      ∧ Memory.wf mem = true

/-- R445: the exit. The upper unconditional jump of a fixed word whose mode is set lands on the half that the exit
flip-flop names, and clears the mode. That a Category II exit is made through any of 00030 to 00033, whichever was
entered, is decision D42 of R445 (log 20). -/
def Obligations.InterruptExit : Prop :=
  ∀ (s : State) (m : Addr), s.half = .upper → s.outOfBounds m = false →
    (s.p = 0o00007 → s.mode1 = true →
      exec (.slj m) s = .next { s.land m s.exit1 with mode1 := false })
      ∧ (s.p = 0o00020 → s.mode3 = true →
        exec (.slj m) s = .next { s.land m s.exit3 with mode3 := false })
      ∧ (0o00030 ≤ s.p → s.p ≤ 0o00033 → s.config.floatingOption = false → s.mode2 = true →
        exec (.slj m) s = .next { s.land m s.exit2 with mode2 := false })

/-! ## Addressing -/

/-- R133: b = 7 takes one indirect level. The low 18 bits of the word at the execution address replace designator and
address in U, and the instruction is begun again; a floating point instruction does so where the option is installed.
These are the 24-bit instructions; LDCH, STCH, the bank jumps and AUG stand in `CharacterInstructions`, `BankJumps` and
`Augment`. That the new b and m are written into U is the choice that R134 leaves (decision D9, log 14). -/
def Obligations.IndirectLevel : Prop :=
  ∀ (s : State) (m : Addr) (i : Instr), s.Quiet → s.hasWord m = true →
    i ∈ indirectForms m ∨ (i ∈ floatingForms 7 m ∧ s.config.floatingOption = true) →
    exec i s = .next { s with
      slsStopped := false
      progress := .indirect (bits (Memory.word s.memory m) 15 3) (bits (Memory.word s.memory m) 0 15)
      u := setBits s.u (match s.half with | .upper => 24 | .lower => 0) (bits (Memory.word s.memory m) 0 18) }

/-- R24, R132, R136: the modified address for b = 0 to 6; an index register reads as it was written, the others keep
their contents, and a write to register 0 or 7 is discarded. -/
def Obligations.Addressing : Prop :=
  (∀ (s : State) (m : Addr),
     s.modified 0 m = m ∧ s.modified 1 m = add15 m s.index.b1 ∧ s.modified 2 m = add15 m s.index.b2
       ∧ s.modified 3 m = add15 m s.index.b3 ∧ s.modified 4 m = add15 m s.index.b4
       ∧ s.modified 5 m = add15 m s.index.b5 ∧ s.modified 6 m = add15 m s.index.b6)
    ∧ (∀ (s : State) (b c : Desig) (v : Addr),
        (b ≠ 0 → b ≠ 7 → (s.setB b v).b b = v) ∧ (c ≠ b → (s.setB b v).b c = s.b c)
          ∧ s.setB 0 v = s ∧ s.setB 7 v = s ∧ s.b 0 = 0 ∧ s.b 7 = 0)

/-- R417: a read of an operand, of an indirect word (AUG's too), of a control word or of an output word with bad parity
sets IR bit 45, and all else is as with good parity. That SSK reads its word in the lower half too, where it is a pass,
is decision D22 of R275. -/
def Obligations.OperandParity : Prop :=
  ∀ s : State, s.slots = [] → s.console.breakSelect = .off → s.stopRequest = false →
    (∀ (b : Desig) (m : Addr) (i : Instr), b ≠ 7 → s.hasWord (s.modified b m) = true → s.modified b m ∈ s.badParity →
      i ∈ operandForms b m ∨ (i ∈ floatingForms b m ∧ s.config.floatingOption = true) →
      s.outOfBounds (s.modified b m) = false ∨ i ∉ [Instr.ssh b m, .rad b m, .rsb b m, .rao b m, .rso b m] →
      s.AcceptsParity (exec i))
      ∧ (∀ (b : Desig) (m : Addr), b ≠ 7 → s.hasWord m = true → m ∈ s.badParity →
        s.AcceptsParity (exec (.liu b m)) ∧ s.AcceptsParity (exec (.lil b m)))
      ∧ (∀ (b : Desig) (m a : Addr) (i : Instr), i ∈ [Instr.eqs b m, .ths b m, .meq b m, .mth b m] →
        (b = 0 ∧ a = m) ∨ (b ≠ 0 ∧ b ≠ 7 ∧ s.b b ≠ 0 ∧ a = add15 m (s.b b - 1)) → s.hasWord a = true →
        a ∈ s.badParity → s.AcceptsParity (exec i))
      ∧ (∀ (m : Addr) (i : Instr), s.hasWord m = true → m ∈ s.badParity →
        i ∈ indirectForms m ∨ (i ∈ floatingForms 7 m ∧ s.config.floatingOption = true)
          ∨ i ∈ [Instr.ubjp 7 m, .brtj 7 m, .bjpl 7 m] →
        s.AcceptsParity (exec i))
      ∧ (∀ y : Addr, s.half = .upper → augV s.config.layouts.aug y = 7 → s.hasWord (bits s.u 0 15) = true →
        bits s.u 0 15 ∈ s.badParity → s.AcceptsParity (exec (.aug y)))
      ∧ (∀ (b v : Desig) (m : Addr), v ≠ 7 → (s.b v).toNat ∈ [0, 6, 12, 18, 24, 30, 36, 42] →
        (b ≠ 7 → s.hasWord (s.modified b m) = true → s.modified b m ∈ s.badParity →
          s.AcceptsParity (exec (.ldch b v m))
            ∧ (s.outOfBounds (s.modified b m) = false → s.AcceptsParity (exec (.stch b v m))))
          ∧ (s.hasWord m = true → m ∈ s.badParity →
            s.AcceptsParity (exec (.ldch 7 v m)) ∧ s.AcceptsParity (exec (.stch 7 v m))))
      ∧ (∀ (x : BitVec 2) (m n : Addr), s.CanUse x → (s.channel x).active = false → s.hasWord m = true →
        m ∈ s.badParity → s.AcceptsParity (exec (.begr x m n)) ∧ s.AcceptsParity (exec (.begw x m n)))
      ∧ (∀ (x : BitVec 2) (stepNow : Bool), s.installed x = true → (s.channel x).active = true →
        (s.channel x).dir = .write → (s.channel x).halted = false → (s.channel x).held = 0 → (s.channel x).count ≠ 0 →
        s.hasWord (s.channel x).addr = true → (s.channel x).addr ∈ s.badParity →
        s.AcceptsParity (Async.wordOut x stepNow).perform)

/-! ## Transmission -/

/-- R152 to R155, R158, R159, R169: the loads of A, Q and an index register; with b = 0 the index loads make the
reference and write nothing. That t2 replaces the loaded quantity by its magnitude is decision D13 of R169 (log 21). -/
def Obligations.OperandLoads : Prop :=
  (∀ (s : State) (b : Desig) (m : Addr), s.CanRead b m →
     exec (.lda b m) s = .next ({ s with a := s.augmented (s.operand b m) } : State).next24
       ∧ exec (.lac b m) s = .next ({ s with a := ~~~(s.operand b m) } : State).next24
       ∧ exec (.ldq b m) s = .next ({ s with q := s.augmented (s.operand b m) } : State).next24
       ∧ exec (.lqc b m) s = .next ({ s with q := ~~~(s.operand b m) } : State).next24)
    ∧ (∀ (s : State) (b : Desig) (m : Addr), s.Quiet → b ≠ 7 → s.hasWord m = true →
        exec (.liu b m) s = .next (s.setB b (bits (Memory.word s.memory m) 24 15)).next24
          ∧ exec (.lil b m) s = .next (s.setB b (bits (Memory.word s.memory m) 0 15)).next24)

/-- R151, R164 to R167, R188, R189: interchange, transmit to index, enter and increase. That INI adds with the one's
complement adder is decision D17 of R189 (log 21). -/
def Obligations.RegisterTransmission : Prop :=
  ∀ (s : State) (b : Desig) (y : Addr), b ≠ 7 →
    exec .iaq s = .next ({ s with a := s.q, q := s.a } : State).next24
      ∧ exec (.ati b) s = .next (s.setB b (bits s.a 0 15)).next24
      ∧ exec (.enq b y) s = .next ({ s with q := (s.modified b y).signExtend 48 } : State).next24
      ∧ exec (.ena b y) s = .next ({ s with a := (s.modified b y).signExtend 48 } : State).next24
      ∧ exec (.eni b y) s = .next (s.setB b y).next24
      ∧ exec (.ini b y) s = .next (s.setB b (add15 y (s.b b))).next24
      ∧ exec (.ina b y) s = .next ({
          s.setIrIf 3 (s.config.inaSetsOverflow && overflow48 s.a ((s.modified b y).signExtend 48)) with
          a := add48 s.a ((s.modified b y).signExtend 48) } : State).next24

/-- R156, R157, R160 to R163, R169, R248: the whole-word stores and the partial ones; SIU and SIL clear the address
portion when b = 0. That t2 replaces the stored quantity by its magnitude is decision D13 of R169 (log 21). -/
def Obligations.Stores : Prop :=
  (∀ (s : State) (b : Desig) (m : Addr), s.CanStore b m →
     exec (.sta b m) s
         = .next ({ s with memory := Memory.setWord s.memory (s.modified b m) (s.augmented s.a) } : State).next24
       ∧ exec (.stq b m) s
         = .next ({ s with memory := Memory.setWord s.memory (s.modified b m) (s.augmented s.q) } : State).next24
       ∧ exec (.stl b m) s
         = .next ({ s with memory := Memory.setWord s.memory (s.modified b m) (s.q &&& s.a) } : State).next24)
    ∧ (∀ (s : State) (b : Desig) (m : Addr), s.Quiet → b ≠ 7 →
        (s.hasWord m = true → s.outOfBounds m = false →
          exec (.siu b m) s = .next ({ s with memory := Memory.setField s.memory m 24 (s.b b) } : State).next24
            ∧ exec (.sil b m) s = .next ({ s with memory := Memory.setField s.memory m 0 (s.b b) } : State).next24)
          ∧ (s.CanStore b m →
            exec (.sau b m) s
                = .next ({ s with memory := Memory.setField s.memory (s.modified b m) 24 (bits s.a 0 15) } : State).next24
              ∧ exec (.sal b m) s
                = .next ({ s with memory := Memory.setField s.memory (s.modified b m) 0 (bits s.a 0 15) } : State).next24))

/-- R66 to R68: a whole-word store changes exactly the six bytes of its word, a partial store exactly its 15 bits. -/
def Obligations.StoredBits : Prop :=
  (∀ (s t : State) (b : Desig) (m : Addr) (i : Instr) (v : Word), Memory.wf s.memory = true → s.CanStore b m →
     (i, v) ∈ [(Instr.sta b m, s.augmented s.a), (.stq b m, s.augmented s.q), (.stl b m, s.q &&& s.a)] →
     exec i s = .next t →
     Memory.word t.memory (s.modified b m) = v
       ∧ ∀ n : Nat, n < 6 * (s.modified b m).toNat ∨ 6 * (s.modified b m).toNat + 6 ≤ n →
         Memory.byte t.memory n = Memory.byte s.memory n)
    ∧ (∀ (s t : State) (b : Desig) (m a : Addr) (i : Instr) (v : Addr) (lo : Nat), Memory.wf s.memory = true → s.Quiet →
        b ≠ 7 → s.hasWord a = true → s.outOfBounds a = false →
        (i, a, lo, v) ∈ [(Instr.siu b m, m, 24, s.b b), (.sil b m, m, 0, s.b b),
          (.sau b m, s.modified b m, 24, bits s.a 0 15), (.sal b m, s.modified b m, 0, bits s.a 0 15)] →
        exec i s = .next t →
        bits (Memory.word t.memory a) lo 15 = v
          ∧ (∀ j, j < 48 → j < lo ∨ lo + 15 ≤ j →
            (Memory.word t.memory a).getLsbD j = (Memory.word s.memory a).getLsbD j)
          ∧ ∀ n : Nat, n < 6 * a.toNat ∨ 6 * a.toNat + 6 ≤ n → Memory.byte t.memory n = Memory.byte s.memory n)

/-! ## Bounds -/

/-- R74, R76, R439: a store, a jump or a reject jump out of bounds, and the fetch of a word out of bounds, do nothing
but the bounds fault, which returns to the same instruction. That nothing else of the instruction has happened, and
that the entry is immediate with the half of that instruction as exit, is decision D6 of R74 and R439 (log 21). The
answer of an equipment that rejects is used up (log 18). -/
def Obligations.BoundsFaults : Prop :=
  (∀ (s : State) (b : Desig) (m : Addr) (i : Instr), s.Quiet → b ≠ 7 → s.outOfBounds (s.modified b m) = true →
     i ∈ [Instr.sta b m, .stq b m, .stl b m, .sau b m, .sal b m, .rad b m, .rsb b m, .rao b m, .rso b m, .ssh b m,
       .ubjp b m, .brtj b m, .bjpl b m] →
     exec i s = .next s.faulted)
    ∧ (∀ (s : State) (b : Desig) (m : Addr), s.Quiet → b ≠ 7 →
        (s.outOfBounds m = true → exec (.siu b m) s = .next s.faulted ∧ exec (.sil b m) s = .next s.faulted)
          ∧ (s.outOfBounds (s.modified b m + 1) = true → exec (.brtj b m) s = .next s.faulted)
          ∧ (∀ v : Desig, v ≠ 7 → (s.b v).toNat ∈ [0, 6, 12, 18, 24, 30, 36, 42] →
            s.outOfBounds (s.modified b m) = true → exec (.stch b v m) s = .next s.faulted))
    ∧ (∀ (s : State) (m : Addr) (i : Instr) (stop : Bool), s.Quiet → s.outOfBounds m = true →
        (i, stop) ∈ [(Instr.sls m, true), (.ss1 m, s.console.maintenance && s.console.stop1),
          (.ss2 m, s.console.maintenance && s.console.stop2), (.ss3 m, s.console.maintenance && s.console.stop3),
          (.srj m, true), (.sr1 m, s.console.maintenance && s.console.stop1),
          (.sr2 m, s.console.maintenance && s.console.stop2), (.sr3 m, s.console.maintenance && s.console.stop3)] →
        stop = false ∨ s.slsStopped = true → exec i s = .next s.faulted)
    ∧ (∀ (s : State) (x : BitVec 2) (c : BitVec 12) (m n : Addr), s.Quiet → s.CanUse x → s.outOfBounds n = true →
        ((s.channel x).active = true → ∀ i ∈ [Instr.conn x c n, .extf x c n, .begr x m n, .begw x m n],
          exec i s = .next s.faulted)
          ∧ ((s.channel x).active = false → s.connectReply x c = false →
            exec (.conn x c n) s = .next ({ s with answers := s.answers.tail } : State).faulted)
          ∧ ((s.channel x).active = false → (s.channel x).conn = none → exec (.extf x c n) s = .next s.faulted)
          ∧ ((s.channel x).active = false → (s.channel x).conn ≠ none → s.functionReply x = false →
            exec (.extf x c n) s = .next ({ s with answers := s.answers.tail } : State).faulted)
          ∧ (bits s.a 24 15 = 0 ∨ (s.channel x).active = false → exec (.ccwd x n) s = .next s.faulted))
    ∧ (∀ s : State, s.Ready → s.Quiet → s.needRni = true → s.outOfBounds s.p = true →
        step s = .next (({ s.setIr 42 with mode1 := true, exit1 := .upper } : State).entered 0o00007 s.p))

/-- R72, R73: which references are out of bounds. -/
def Obligations.BoundsCheck : Prop :=
  ∀ (s : State) (a : Addr), s.outOfBounds a = true ↔
    (s.intActive = true ∧ s.mask.getLsbD 42 = true ∧ s.mode1 = false ∧ s.mode2 = false ∧ s.mode3 = false)
      ∧ (a.toNat / 128 < s.bl.toNat ∨ (s.bu ≠ 0 ∧ s.bu.toNat ≤ a.toNat / 128))

/-- R72, R74: while bounds checking is in effect, no instruction changes a word out of bounds, except the fixed words of
the interrupt entries, whatever the instruction and its operands. -/
def Obligations.BoundsProtectStorage : Prop :=
  ∀ (i : Instr) (s t : State) (a : Addr), Memory.wf s.memory = true → s.slots = [] → s.outOfBounds a = true →
    exec i s = .next t → a ≠ 0o00007 → a ≠ 0o00020 → ¬ (0o00030 ≤ a ∧ a ≤ 0o00033) →
    Memory.word t.memory a = Memory.word s.memory a

/-- R37: only ELB writes the lower bound and only EUB the upper one. -/
def Obligations.BoundsRegistersKept : Prop :=
  ∀ (i : Instr) (s t : State), exec i s = .next t →
    ((∀ y, i ≠ .elb y) → t.bl = s.bl) ∧ ((∀ y, i ≠ .eub y) → t.bu = s.bu)

/-- R340 to R343: EUB and ELB, and when they are illegal. That they load bits 14..7 of y is decision D25 of R340, and
that an augmented one returns to its upper half is decision D43 of R442: the spec's own choices. -/
def Obligations.BoundsInstructions : Prop :=
  ∀ (s : State) (y : Addr),
    (s.intActive = false ∨ s.mask.getLsbD 42 = false →
      exec (.eub y) s = .next ({ s with bu := bits y 7 8 } : State).next24
        ∧ exec (.elb y) s = .next ({ s with bl := bits y 7 8 } : State).next24)
      ∧ (s.intActive = true → s.mask.getLsbD 42 = true → s.Undisturbed →
        exec (.eub y) s = .next s.trapped ∧ exec (.elb y) s = .next s.trapped)

/-! ## Arithmetic -/

/-- R184, R185, R246, R247: sums into A with the arithmetic overflow fault. That A holds the wrapped sum after an
overflow is decision D14 of R182, and that ADL and SBL have the fault is decision D20 of R246 and R247 (log 21). -/
def Obligations.FixedPointSums : Prop :=
  ∀ (s : State) (b : Desig) (m : Addr) (i : Instr) (x : Word), s.CanRead b m →
    (i, x) ∈ [(Instr.add b m, s.augmented (s.operand b m)), (.sub b m, ~~~(s.augmented (s.operand b m))),
      (.adl b m, s.q &&& s.operand b m), (.sbl b m, ~~~(s.q &&& s.operand b m))] →
    exec i s = .next ({ s.setIrIf 3 (overflow48 s.a x) with a := add48 s.a x } : State).next24

/-- R186: the product in QA; the sign of a zero product is open. -/
def Obligations.Multiply : Prop :=
  ∀ (s : State) (b : Desig) (m : Addr), s.CanRead b m →
    ∃ v : BitVec 96, onesValue v = onesValue s.a * onesValue (s.augmented (s.operand b m))
      ∧ exec (.mui b m) s = .next ({ s with q := bits v 48 48, a := bits v 0 48 } : State).next24

/-- R187: quotient and remainder, a remainder that is not zero with the sign of the dividend; the signs of a zero
quotient and of a zero remainder are open (U8, decision D15, log 21). The divide fault sets IR bit 2 and leaves A and Q
open (U9), nothing else changes. -/
def Obligations.Divide : Prop :=
  (∀ (s : State) (b : Desig) (m : Addr), s.CanRead b m →
     onesValue (s.augmented (s.operand b m)) ≠ 0 →
     ((onesValue (s.q ++ s.a : BitVec 96)).tdiv (onesValue (s.augmented (s.operand b m)))).natAbs < 2 ^ 47 →
     ∃ quot rem : Word,
       onesValue quot * onesValue (s.augmented (s.operand b m)) + onesValue rem = onesValue (s.q ++ s.a : BitVec 96)
         ∧ (onesValue rem).natAbs < (onesValue (s.augmented (s.operand b m))).natAbs
         ∧ (onesValue rem ≠ 0 → rem.msb = s.q.msb)
         ∧ exec (.dvi b m) s = .next ({ s with a := quot, q := rem } : State).next24)
    ∧ (∀ (s : State) (b : Desig) (m : Addr), s.CanRead b m →
        (onesValue (s.augmented (s.operand b m)) = 0
          ∨ 2 ^ 47 ≤ ((onesValue (s.q ++ s.a : BitVec 96)).tdiv (onesValue (s.augmented (s.operand b m)))).natAbs) →
        ∃ x y : Word, exec (.dvi b m) s = .next ({ s.setIr 2 with a := x, q := y } : State).next24)

/-- R190, R275, R276: index skip, storage skip, and storage shift, which senses the sign before its rotation. -/
def Obligations.Skips : Prop :=
  (∀ (s : State) (b : Desig) (y : Addr), b ≠ 7 →
     (s.b b = y → exec (.isk b y) s = .next ((s.setB b 0).skipIf true))
       ∧ (s.b b ≠ y → exec (.isk b y) s = .next (s.setB b (s.b b + 1)).next24))
    ∧ (∀ (s : State) (b : Desig) (m : Addr), s.CanRead b m →
        exec (.ssk b m) s = .next (s.skipIf (s.operand b m).msb))
    ∧ (∀ (s : State) (b : Desig) (m : Addr), s.CanStore b m →
        exec (.ssh b m) s = .next (({ s with
          memory := Memory.setWord s.memory (s.modified b m) ((s.operand b m).rotateLeft 1) } : State).skipIf
            (s.operand b m).msb))

/-! ## Floating point -/

/-- R218, R219, R440: with the option the four instructions complete with the result of their arithmetic and OR its
faults into IR bits 2, 4 and 5; without it each takes the Category II interrupt at 00030 + (f - 30). That the interrupt
comes before any address modification, whatever the operands, and that an augmented instruction returns to its upper
half is decision D43 of R440, the spec's own extension (logs 21 and 32). -/
def Obligations.FloatingPoint : Prop :=
  (∀ (s : State) (b : Desig) (m : Addr) (i : Instr) (r : FpResult), s.CanRead b m → s.config.floatingOption = true →
     (i, r) ∈ [(Instr.fad b m, fad s.a (s.augmented (s.operand b m)) s.designators),
       (.fsb b m, fsb s.a (s.augmented (s.operand b m)) s.designators),
       (.fmu b m, fmu s.a (s.augmented (s.operand b m)) s.designators),
       (.fdv b m, fdv s.a (s.augmented (s.operand b m)) s.designators)] →
     exec i s = .next
       ({ ((s.setIrIf 2 r.divideFault).setIrIf 4 r.overflow).setIrIf 5 r.underflow with
         a := r.a, q := r.q } : State).next24)
    ∧ (∀ (s : State) (b : Desig) (m : Addr) (i : Instr) (f : Addr), s.config.floatingOption = false → s.Undisturbed →
        (i, f) ∈ [(Instr.fad b m, 0o00030), (.fsb b m, 0o00031), (.fmu b m, 0o00032), (.fdv b m, 0o00033)] →
        exec i s = .next
          (({ s with mode2 := true, exit2 := if s.augPending then .upper else s.half } : State).entered f s.p))

/-- R215, R216: an exponent underflow leaves A and Q positive zero, and only FDV has a divide fault: exactly when the
dividend coefficient is not zero and the divisor's is zero or at most half of it. -/
def Obligations.FloatingFaults : Prop :=
  ∀ (x y : Word) (t : AugT) (r : FpResult), r ∈ [fad x y t, fsb x y t, fmu x y t, fdv x y t] →
    (r.underflow = true → r.a = plus0 ∧ r.q = plus0 ∧ r.overflow = false)
      ∧ (fad x y t).divideFault = false ∧ (fsb x y t).divideFault = false ∧ (fmu x y t).divideFault = false
      ∧ ((fdv x y t).divideFault = true ↔
        (unpack x).coef ≠ 0 ∧ ((unpack y).coef = 0 ∨ 2 * (unpack y).coef ≤ (unpack x).coef))

/-- R210, R211, R213 to R215, R217, R220, R222, R224, R226: the values. Normalization keeps the value, up to the one
bit that a right shift drops, and sets bit 35 unless t1 forbids it; the pack is undone by the unpack; the result of
each instruction is formed from the coefficient that its rule gives, with overflow and underflow exactly outside
±1023. What the source leaves open is existentially bound (log 15): the place of the FDV quotient, the rounding
quantity of FAD, which for normalized operands and t = 000 is one of those that meet R220 item 5, if any does, and the
form of FAD's residue. -/
def Obligations.FloatingResults : Prop :=
  (∀ (e : Int) (c : Nat), c < 2 ^ 37 →
     (normalize e 0 false = (e, 0) ∧ normalize e 0 true = (e, 0))
       ∧ (c < 2 ^ 36 → normalize e c true = (e, c))
       ∧ (2 ^ 36 ≤ c → normalize e c true = (e + 1, c / 2) ∧ normalize e c false = (e + 1, c / 2))
       ∧ (0 < c → c < 2 ^ 36 → ∃ k : Nat, normalize e c false = (e - k, c * 2 ^ k)
         ∧ 2 ^ 35 ≤ c * 2 ^ k ∧ c * 2 ^ k < 2 ^ 36))
    ∧ (∀ (neg : Bool) (e : Int) (c : Nat), 0 < c → c < 2 ^ 36 → -1023 ≤ e → e ≤ 1023 →
        (unpack (packFp neg e c)).neg = neg ∧ (unpack (packFp neg e c)).exponent = e
          ∧ (unpack (packFp neg e c)).coef = c ∧ (unpack (packFp neg e c)).odd = false)
    ∧ (∀ (x y : Word) (t : AugT) (u v : Unpacked), u = unpack x → v = unpack y →
        (u.coef = 0 ∨ v.coef = 0 → fmu x y t = {
          a := if u.neg = v.neg then plus0 else minus0, q := 0, divideFault := false, overflow := false
          underflow := false })
        ∧ (u.coef = 0 → fdv x y t = {
          a := if u.neg = v.neg then plus0 else minus0, q := 0, divideFault := false, overflow := false
          underflow := false })
        ∧ fsb x y t = fad x (~~~y) t
        ∧ (u.odd = false → v.odd = false → u.coef ≠ 0 → v.coef ≠ 0 →
          (fmu x y t).Formed (u.neg ^^ v.neg)
              (normalize (u.exponent + v.exponent)
                (if t.t0 = false ∧ 2 ^ 35 ≤ u.coef * v.coef % 2 ^ 36 then u.coef * v.coef / 2 ^ 36 + 1
                 else u.coef * v.coef / 2 ^ 36) t.t1)
              (BitVec.ofNat 48 (u.coef * v.coef % 2 ^ 36 * 2 ^ 12))
            ∧ (u.coef < 2 * v.coef → ∃ n : Nat, (n = 35 ∨ (n = 36 ∧ u.coef < v.coef))
              ∧ (fdv x y t).Formed (u.neg ^^ v.neg)
                (normalize (u.exponent - v.exponent + (36 - n))
                  (if t.t0 = false ∧ v.coef ≤ 2 * (u.coef * 2 ^ n % v.coef) then u.coef * 2 ^ n / v.coef + 1
                   else u.coef * 2 ^ n / v.coef) t.t1)
                (BitVec.ofNat 48 (u.coef * 2 ^ n % v.coef)))
            ∧ (u.exponent = v.exponent → ∃ neg : Bool,
              (u.signed + v.signed < 0 → neg = true) ∧ (0 < u.signed + v.signed → neg = false)
                ∧ (fad x y t).Formed neg (normalize u.exponent (u.signed + v.signed).natAbs t.t1) 0)))
    ∧ (∀ (x y : Word) (t : AugT) (big small : Unpacked) (d : Nat),
        (big = unpack x ∧ small = unpack y) ∨ (big = unpack y ∧ small = unpack x) →
        big.odd = false → small.odd = false → big.coef ≠ 0 → small.coef ≠ 0 → 0 < d → d ≤ 36 →
        big.exponent = small.exponent + d →
        ∃ (r sum : Int) (neg : Bool) (q : Word), (r = -1 ∨ r = 0 ∨ r = 1) ∧ (t.t0 = true → r = 0)
          ∧ sum = big.signed + small.signed.tdiv (2 ^ d) + r
          ∧ (2 ^ 35 ≤ big.coef → 2 ^ 35 ≤ small.coef → t = AugT.zero →
            (∃ r' ∈ [-1, 0, 1], fadClose big small d r' = true) → fadClose big small d r = true)
          ∧ (sum < 0 → neg = true) ∧ (0 < sum → neg = false)
          ∧ (q.toNat / 2 ^ (48 - d) = small.coef % 2 ^ d
            ∨ (small.neg = true ∧ q.toNat / 2 ^ (48 - d) = 2 ^ d - 1 - small.coef % 2 ^ d))
          ∧ (fad x y t).Formed neg (normalize big.exponent sum.natAbs t.t1) q)

/-- R220 item 2: where the exponents differ by more than 36, whichever operand w has the greater one, the result is w
normalized, w itself if it is normalized, and Q is positive zero; where the coefficient of w is zero Q is positive zero
too (A is then open, log 15). -/
def Obligations.FloatingNegligible : Prop :=
  ∀ (x y w z : Word) (t : AugT), (w = x ∧ z = y) ∨ (w = y ∧ z = x) → (unpack w).odd = false →
    (unpack z).odd = false → (unpack z).exponent + 36 < (unpack w).exponent →
    (fad x y t).q = plus0
      ∧ ((unpack w).coef ≠ 0 →
        (fad x y t).Formed (unpack w).neg (normalize (unpack w).exponent (unpack w).coef t.t1) 0)
      ∧ (2 ^ 35 ≤ (unpack w).coef →
        fad x y t = { a := w, q := 0, divideFault := false, overflow := false, underflow := false })

/-! ## Logical, shift and scale -/

/-- R241 to R245: the logical instructions that write A. -/
def Obligations.LogicalInstructions : Prop :=
  ∀ (s : State) (b : Desig) (m : Addr), s.CanRead b m →
    exec (.sst b m) s = .next ({ s with a := s.a ||| s.operand b m } : State).next24
      ∧ exec (.scl b m) s = .next ({ s with a := s.a &&& ~~~(s.operand b m) } : State).next24
      ∧ exec (.scm b m) s = .next ({ s with a := s.a ^^^ s.operand b m } : State).next24
      ∧ exec (.ssu b m) s
          = .next ({ s with a := (s.a &&& ~~~s.q) ||| (s.operand b m &&& s.q) } : State).next24
      ∧ exec (.ldl b m) s = .next ({ s with a := s.q &&& s.operand b m } : State).next24

/-- R250 to R258: a shift by at most the length of the register; a longer one sets IR bit 1 and shifts nothing. That
the count is compared as an unsigned number, so that 77776 is too long and no reversal, is decision D19 of R251. -/
def Obligations.Shifts : Prop :=
  (∀ (s : State) (b : Desig) (k : Addr), b ≠ 7 →
     ((s.modified b k).toNat ≤ 48 →
       exec (.ars b k) s = .next ({ s with a := s.a.sshiftRight (s.modified b k).toNat } : State).next24
         ∧ exec (.qrs b k) s = .next ({ s with q := s.q.sshiftRight (s.modified b k).toNat } : State).next24
         ∧ exec (.als b k) s = .next ({ s with a := s.a.rotateLeft (s.modified b k).toNat } : State).next24
         ∧ exec (.qls b k) s = .next ({ s with q := s.q.rotateLeft (s.modified b k).toNat } : State).next24)
       ∧ ((s.modified b k).toNat ≤ 96 →
         exec (.lrs b k) s = .next ({ s with
             a := bits ((s.a ++ s.q : BitVec 96).sshiftRight (s.modified b k).toNat) 48 48
             q := bits ((s.a ++ s.q : BitVec 96).sshiftRight (s.modified b k).toNat) 0 48 } : State).next24
           ∧ exec (.lls b k) s = .next ({ s with
             a := bits ((s.a ++ s.q : BitVec 96).rotateLeft (s.modified b k).toNat) 48 48
             q := bits ((s.a ++ s.q : BitVec 96).rotateLeft (s.modified b k).toNat) 0 48 } : State).next24))
    ∧ (∀ (s : State) (b : Desig) (k : Addr), b ≠ 7 →
        (48 < (s.modified b k).toNat →
          exec (.ars b k) s = .next (s.setIr 1).next24 ∧ exec (.qrs b k) s = .next (s.setIr 1).next24
            ∧ exec (.als b k) s = .next (s.setIr 1).next24 ∧ exec (.qls b k) s = .next (s.setIr 1).next24)
          ∧ (96 < (s.modified b k).toNat →
            exec (.lrs b k) s = .next (s.setIr 1).next24 ∧ exec (.lls b k) s = .next (s.setIr 1).next24))

/-- R260 to R262: the two scales write the register and the index register that names the count; a zero is not
shifted. Any other register, A or AQ, is rotated by some number n of places, at most the low seven bits of k, and the
count is k - n; the scale stops because the count is used up or the register is scaled, and at no smaller number of
places was it scaled. -/
def Obligations.Scales : Prop :=
  (∀ (s : State) (b : Desig) (k : Addr), b ≠ 7 →
     exec (.sca b k) s = .next (({ s with a := (scaled s.a k).1 } : State).setB b (scaled s.a k).2).next24
       ∧ exec (.scq b k) s = .next (({ s with
           a := bits (scaled (s.a ++ s.q : BitVec 96) k).1 48 48
           q := bits (scaled (s.a ++ s.q : BitVec 96) k).1 0 48 } : State).setB b
             (scaled (s.a ++ s.q : BitVec 96) k).2).next24
       ∧ scaled plus0 k = (plus0, k) ∧ scaled minus0 k = (minus0, k)
       ∧ scaled (0 : BitVec 96) k = (0, k) ∧ scaled (BitVec.allOnes 96) k = (BitVec.allOnes 96, k))
    ∧ (∀ (x : Word) (k : Addr), x ≠ plus0 → x ≠ minus0 →
        ∃ n : Nat, n ≤ (bits k 0 7).toNat
          ∧ scaled x k = (rotl x n, k - BitVec.ofNat 15 n)
          ∧ (n = (bits k 0 7).toNat ∨ (rotl x n).getLsbD 47 ≠ (rotl x n).getLsbD 46)
          ∧ ∀ j, j < n → (rotl x j).getLsbD 47 = (rotl x j).getLsbD 46)
    ∧ (∀ (x : BitVec 96) (k : Addr), x ≠ 0 → x ≠ BitVec.allOnes 96 →
        ∃ n : Nat, n ≤ (bits k 0 7).toNat
          ∧ scaled x k = (rotl x n, k - BitVec.ofNat 15 n)
          ∧ (n = (bits k 0 7).toNat ∨ (rotl x n).getLsbD 95 ≠ (rotl x n).getLsbD 94)
          ∧ ∀ j, j < n → (rotl x j).getLsbD 95 = (rotl x j).getLsbD 94)

/-! ## Replace, storage tests, searches -/

/-- R270 to R274: the sum goes to A and back to storage, with the overflow fault. That the wrapped sum stands in both
after an overflow is decision D14 of R182 (log 21), on which the spec asks proofs not to depend. -/
def Obligations.ReplaceInstructions : Prop :=
  ∀ (s : State) (b : Desig) (m : Addr) (i : Instr) (y : Word), s.CanStore b m →
    (i, y) ∈ [(Instr.rad b m, s.a), (.rsb b m, ~~~s.a), (.rao b m, 1), (.rso b m, ~~~(1 : Word))] →
    exec i s = .next ({ s.setIrIf 3 (overflow48 (s.operand b m) y) with
      a := add48 (s.operand b m) y
      memory := Memory.setWord s.memory (s.modified b m) (add48 (s.operand b m) y) } : State).next24

/-- R281, R283: one iteration of a search. With b = 0 only the word at m is examined; with an index register that is
zero none is; else the register is reduced by one and the word at m plus the register is examined. The order of THS
and MTH is that of the signed values, with negative zero just below positive zero. -/
def Obligations.SearchIteration : Prop :=
  (∀ (s : State) (b : Desig) (m : Addr) (i : Instr) (hit : Word → Bool), s.Quiet → b ≠ 7 →
    (i, hit) ∈ [(Instr.eqs b m, fun x => decide (x = s.a)), (.ths b m, fun x => gt48 x s.a),
      (.meq b m, fun x => decide (s.q &&& x = s.a)), (.mth b m, fun x => gt48 (s.q &&& x) s.a)] →
    (b = 0 → s.hasWord m = true → exec i s = .next (s.skipIf (hit (Memory.word s.memory m))))
      ∧ (b ≠ 0 → s.b b = 0 → exec i s = .next s.next24)
      ∧ (b ≠ 0 → s.b b ≠ 0 → s.hasWord (add15 m (s.b b - 1)) = true →
        exec i s = .next
          (if hit (Memory.word s.memory (add15 m (s.b b - 1))) then (s.setB b (s.b b - 1)).skipIf true
           else if s.b b = 1 then (s.setB b 0).next24
           else { s.setB b (s.b b - 1) with slsStopped := false, progress := .search })))
    ∧ (∀ x a : Word, gt48 x a = true ↔ onesValue a < onesValue x ∨ (x = plus0 ∧ a = minus0))

/-- R281 to R285: a whole search. It examines the words from the last one down and ends at the first hit with the index
register at its place, or with the register at zero and no skip. -/
def Obligations.SearchFindsLastMatch : Prop :=
  ∀ (s : State) (b : Desig) (m : Addr) (i : Instr) (hit : Word → Bool), s.Quiet → b ≠ 7 → b ≠ 0 →
    (i, hit) ∈ [(Instr.eqs b m, fun x => decide (x = s.a)), (.ths b m, fun x => gt48 x s.a),
      (.meq b m, fun x => decide (s.q &&& x = s.a)), (.mth b m, fun x => gt48 (s.q &&& x) s.a)] →
    (∀ j : Addr, j < s.b b → s.hasWord (add15 m j) = true) →
    (∀ j : Addr, j < s.b b → hit (Memory.word s.memory (add15 m j)) = true →
      (∀ k : Addr, j < k → k < s.b b → hit (Memory.word s.memory (add15 m k)) = false) →
      repeatExec i ((s.b b).toNat - j.toNat) s = .next ((s.setB b j).skipIf true))
      ∧ (s.b b ≠ 0 → (∀ k : Addr, k < s.b b → hit (Memory.word s.memory (add15 m k)) = false) →
        repeatExec i (s.b b).toNat s = .next (s.setB b 0).next24)

/-! ## Jumps and stops -/

/-- R302 to R304, R306: the normal jumps, taken and not taken; and the four register conditions on the two zeros and
on every other word. Taken out of bounds they take the bounds fault, which repeats the jump (R74, R439, decision D6),
an augmented one from its upper half (D43). -/
def Obligations.NormalJumps : Prop :=
  (∀ (s : State) (c : BitVec 2) (m : Addr) (i : Instr) (taken : Bool),
     (i, taken) ∈ [(Instr.ajp c m, condition c s.a), (.qjp c m, condition c s.q), (.slj m, true),
       (.sj1 m, s.console.jump1), (.sj2 m, s.console.jump2), (.sj3 m, s.console.jump3)] →
     (taken = true → s.CanJump m → exec i s = .next (s.land m .upper))
       ∧ (taken = false → exec i s = .next s.next24)
       ∧ (taken = true → s.outOfBounds m = true → s.Undisturbed → exec i s = .next s.faulted))
    ∧ (condition 0 plus0 = true ∧ condition 0 minus0 = true ∧ condition 1 plus0 = false ∧ condition 1 minus0 = false
        ∧ condition 2 plus0 = true ∧ condition 2 minus0 = false ∧ condition 3 plus0 = false ∧ condition 3 minus0 = true
        ∧ ∀ x : Word, x ≠ plus0 → x ≠ minus0 →
          condition 0 x = false ∧ condition 1 x = true ∧ condition 2 x = !x.getLsbD 47 ∧ condition 3 x = x.getLsbD 47)

/-- R314 to R317, R74, R439: the return jumps. P + 1 goes to the upper address of m and the lower instruction of m is
next. Out of bounds they take the bounds fault, which stores nothing and repeats the jump by decision D6 of R74 and R439
(logs 19 and 21), an augmented one from its upper half (decision D43 of R442, log 21). -/
def Obligations.ReturnJumps : Prop :=
  ∀ (s : State) (c : BitVec 2) (m : Addr) (i : Instr) (taken : Bool), s.Quiet →
    (i, taken) ∈ [(Instr.arj c m, condition c s.a), (.qrj c m, condition c s.q), (.rtj m, true),
      (.rj1 m, s.console.jump1), (.rj2 m, s.console.jump2), (.rj3 m, s.console.jump3)] →
    (taken = true → s.CanJump m → s.hasWord m = true →
      exec i s = .next
        (({ s with memory := Memory.setField s.memory m 24 (s.p + 1) } : State).land m .lower))
      ∧ (taken = false → exec i s = .next s.next24)
      ∧ (taken = true → s.outOfBounds m = true → exec i s = .next s.faulted)

/-- R310, R318: the selective stops stop on their condition, and after Go they jump without testing it again; with a
return jump the return address is stored when the jump is made. That the flag `slsStopped` tells Go to jump is
decision D23 of R310; that the stop forgets a stop request is the model's choice (log 23). -/
def Obligations.SelectiveStops : Prop :=
  (∀ (s : State) (m : Addr) (i : Instr) (stop : Bool),
     (i, stop) ∈ [(Instr.sls m, true), (.ss1 m, s.console.maintenance && s.console.stop1),
       (.ss2 m, s.console.maintenance && s.console.stop2), (.ss3 m, s.console.maintenance && s.console.stop3)] →
     (stop = true → s.slsStopped = false →
       exec i s = .next { s with running := false, slsStopped := true, stopRequest := false })
       ∧ (stop = false ∨ s.slsStopped = true → s.CanJump m → exec i s = .next (s.land m .upper)))
    ∧ (∀ (s : State) (m : Addr) (i : Instr) (stop : Bool), s.Quiet →
        (i, stop) ∈ [(Instr.srj m, true), (.sr1 m, s.console.maintenance && s.console.stop1),
          (.sr2 m, s.console.maintenance && s.console.stop2), (.sr3 m, s.console.maintenance && s.console.stop3)] →
        (stop = true → s.slsStopped = false →
          exec i s = .next { s with running := false, slsStopped := true, stopRequest := false })
          ∧ (stop = false ∨ s.slsStopped = true → s.CanJump m → s.hasWord m = true →
            exec i s = .next
              (({ s with memory := Memory.setField s.memory m 24 (s.p + 1) } : State).land m .lower)))

/-- R305, R74, R439: index jump. A bounds fault leaves the index register unreduced and repeats the jump by decision D6 of
R74 and R439 (logs 19 and 21), an augmented one from its upper half (decision D43 of R442, log 21). -/
def Obligations.IndexJump : Prop :=
  ∀ (s : State) (b : Desig) (m : Addr), b ≠ 7 →
    (s.b b = 0 → exec (.ijp b m) s = .next s.next24)
      ∧ (s.b b ≠ 0 → s.CanJump m → exec (.ijp b m) s = .next ((s.setB b (s.b b - 1)).land m .upper))
      ∧ (s.b b ≠ 0 → s.outOfBounds m = true → s.Undisturbed → exec (.ijp b m) s = .next s.faulted)

/-- R321 to R323: the bank jumps; with b = 7 they take one indirect level, whose designator and address are local
values of the jump (log 33). The word that BRTJ stores decodes to UBJP 0 to the address given, for every valid layout
in which that word is no character instruction. -/
def Obligations.BankJumps : Prop :=
  (∀ (s : State) (b : Desig) (m : Addr), s.Quiet →
     (b ≠ 7 → s.CanJump (s.modified b m) →
       exec (.ubjp b m) s = .next (s.land (s.modified b m) .upper)
         ∧ exec (.bjpl b m) s = .next (s.land (s.modified b m) .lower))
       ∧ (b ≠ 7 → s.CanJump (s.modified b m) → s.outOfBounds (s.modified b m + 1) = false →
         s.hasWord (s.modified b m) = true →
         exec (.brtj b m) s = .next (({ s with
           memory := Memory.setWord s.memory (s.modified b m) (mkUbjp s.config.layouts.bank (s.p + 1)) } : State).land
             (s.modified b m + 1) .upper))
       ∧ (s.hasWord m = true → ∀ (b' : Desig) (m' : Addr) (i j : Instr),
         b' = bits (Memory.word s.memory m) 15 3 → m' = bits (Memory.word s.memory m) 0 15 →
         (i, j) ∈ [(Instr.ubjp 7 m, Instr.ubjp b' m'), (.brtj 7 m, .brtj b' m'), (.bjpl 7 m, .bjpl b' m')] →
         exec i s = .next { s with slsStopped := false, progress := .indirect b' m', resumed := some j }))
    ∧ (∀ (l : Layouts) (m : Addr), l.valid = true → characterPattern (mkUbjp l.bank m) = false →
        decode l .upper (mkUbjp l.bank m) = .instr (.ubjp 0 m))

/-! ## Characters and Augment -/

/-- R331 to R334: the character instructions at the eight positions and their indirect level; any other position is an
illegal instruction, and v = 7 has no meaning and stops the model (U12, log 27). That v = 0 names the position zero is
decision D24 of R332 (log 21); that an augmented illegal one returns to its upper half is decision D43 of R442. -/
def Obligations.CharacterInstructions : Prop :=
  (∀ (s : State) (b v : Desig) (m : Addr), v ≠ 7 → (s.b v).toNat ∈ [0, 6, 12, 18, 24, 30, 36, 42] →
     (s.CanRead b m → exec (.ldch b v m) s
         = .next ({ s with a := (bits (s.operand b m) (s.b v).toNat 6).setWidth 48 } : State).advance)
       ∧ (s.CanStore b m → exec (.stch b v m) s
         = .next ({ s with memory := Memory.setField s.memory (s.modified b m) (s.b v).toNat (bits s.a 0 6) }
             : State).advance)
       ∧ (s.Quiet → s.hasWord m = true → ∀ i ∈ [Instr.ldch 7 v m, .stch 7 v m], exec i s = .next { s with
           slsStopped := false
           progress := .indirect (bits (Memory.word s.memory m) 15 3) (bits (Memory.word s.memory m) 0 15)
           u := setBits (setBits s.u 39 (bits (Memory.word s.memory m) 15 3)) 0
             (bits (Memory.word s.memory m) 0 15) }))
    ∧ (∀ (s : State) (b v : Desig) (m : Addr),
        (v ≠ 7 → (s.b v).toNat ∉ [0, 6, 12, 18, 24, 30, 36, 42] → s.Undisturbed →
          exec (.ldch b v m) s = .next s.trapped ∧ exec (.stch b v m) s = .next s.trapped)
          ∧ exec (.ldch b 7 m) s = .fault .characterRegisterSeven
          ∧ exec (.stch b 7 m) s = .fault .characterRegisterSeven)

/-- R337, R169, R191: Augment. In the lower half a pass; in the upper half it modifies the address of the lower
instruction in U and keeps the t designators; with v = 7 it takes one indirect level, which replaces v in the AUG and
leaves its t designators. That with t2 a quantity is replaced by its magnitude is decision D13 of R169 and R191 (log
21); without it the quantity itself is used. -/
def Obligations.Augment : Prop :=
  (∀ (s : State) (y : Addr),
     (s.half = .lower → exec (.aug y) s = .next s.next24)
       ∧ (s.half = .upper → augV s.config.layouts.aug y ≠ 7 →
         exec (.aug y) s = .next { s with
           u := setBits s.u 0
             (if augV s.config.layouts.aug y = 0 then bits s.u 0 15
              else add15 (bits s.u 0 15) (s.b (augV s.config.layouts.aug y)))
           half := .lower, augPending := true, augT := augBits s.config.layouts.aug y, slsStopped := false
           running := s.running && !s.stopRequest, stopRequest := false, progress := .idle, resumed := none
           passedExit := s.pass })
       ∧ (s.half = .upper → augV s.config.layouts.aug y = 7 → s.Quiet → s.hasWord (bits s.u 0 15) = true →
         exec (.aug y) s = .next { s with
           slsStopped := false
           progress := .indirect (bits (Memory.word s.memory (bits s.u 0 15)) 15 3)
             (bits (Memory.word s.memory (bits s.u 0 15)) 0 15)
           u := setBits (putAugV s.config.layouts.aug s.u (bits (Memory.word s.memory (bits s.u 0 15)) 15 3)) 0
             (bits (Memory.word s.memory (bits s.u 0 15)) 0 15) }))
    ∧ (∀ (l : AugLayout) (u : Word) (v : Desig), l.valid = true →
        augV l (bits (putAugV l u v) 24 15) = v ∧ augBits l (bits (putAugV l u v) 24 15) = augBits l (bits u 24 15))
    ∧ (∀ (s : State) (x : Word),
        (s.augPending = true → s.augT.t2 = true → onesValue (s.augmented x) = ((onesValue x).natAbs : Int)
          ∧ (s.augmented x).msb = false)
          ∧ (s.augPending = false → s.augmented x = x) ∧ (s.augT.t2 = false → s.augmented x = x))

/-! ## Internal functions, sense, copies -/

/-- R351 to R365: the INF codes that name a channel, and all the others. That 00602 keeps bits 20 to 23 and 30 to 33 of
MASK too is decision D28 of R364 (log 21). -/
def Obligations.InternalFunctions : Prop :=
  (∀ (s : State) (x : BitVec 2), s.CanUse x →
     exec (.inf (BitVec.ofNat 15 (8 * x.toNat))) s
         = .next ((s.setMask (10 + x.toNat)).clearIr (10 + x.toNat)).next24
       ∧ exec (.inf (BitVec.ofNat 15 (8 * x.toNat + 1))) s
         = .next ((s.clearMask (10 + x.toNat)).clearIr (10 + x.toNat)).next24
       ∧ exec (.inf (BitVec.ofNat 15 (0o200 + 8 * x.toNat))) s = .next (s.setMask (30 + x.toNat)).next24
       ∧ exec (.inf (BitVec.ofNat 15 (0o201 + 8 * x.toNat))) s = .next (s.clearMask (30 + x.toNat)).next24
       ∧ exec (.inf (BitVec.ofNat 15 (0o300 + 8 * x.toNat))) s = .next (s.setMask (20 + x.toNat)).next24
       ∧ exec (.inf (BitVec.ofNat 15 (0o301 + 8 * x.toNat))) s = .next (s.clearMask (20 + x.toNat)).next24)
    ∧ (∀ (s t : State) (y : Addr), s.locked = false →
        (y, t) ∈ [(0o110, { s with exit1 := .lower }), (0o111, { s with exit1 := .upper }),
          (0o120, { s with exit2 := .lower }), (0o121, { s with exit2 := .upper }),
          (0o130, { s with exit3 := .lower }), (0o131, { s with exit3 := .upper }),
          (0o400, (((((s.clearIr 1).clearIr 2).clearIr 3).clearIr 4).clearIr 5)),
          (0o410, s.setMask 1), (0o411, s.clearMask 1), (0o412, s.clearIr 1),
          (0o420, s.setMask 2), (0o421, s.clearMask 2), (0o422, s.clearIr 2),
          (0o430, s.setMask 3), (0o431, s.clearMask 3), (0o432, s.clearIr 3),
          (0o440, s.setMask 4), (0o441, s.clearMask 4), (0o442, s.clearIr 4),
          (0o450, s.setMask 5), (0o451, s.clearMask 5), (0o452, s.clearIr 5),
          (0o500, s.setMask 44), (0o501, (s.clearMask 44).clearIr 44),
          (0o510, (s.setMask 43).clearIr 43), (0o511, (s.clearMask 43).clearIr 43),
          (0o520, s.setMask 45), (0o521, s.clearMask 45), (0o522, s.clearIr 45),
          (0o530, s.setMask 46), (0o531, s.clearMask 46), (0o532, s.clearIr 46),
          (0o540, (s.setMask 42).clearIr 42), (0o541, (s.clearMask 42).clearIr 42),
          (0o600, { s with intActive := true }), (0o601, { s with intActive := false }),
          (0o602, { s with irff := s.irff &&& 0o0000170074000000, mask := s.mask &&& 0o0000170074000000,
                           intActive := false }),
          (0o610, { s with lockout := true }), (0o611, { s with lockout := false })] →
        exec (.inf y) s = .next t.next24)

/-- R366, R111, R112, U5, U6, U13: an INF code of no row, or of an absent channel, 77.2 and 77.4 with a code of no
instruction, f = 63 or 74.0 to 74.6 in the lower half, and the lower half of a 48-bit code other than LDCH and STCH have
no meaning, so the model stops there. That this last case covers the words that R102 calls illegal, f = 63 and 74.7, and
that f = 63 stops in every lower half, is the model's choice (log 27, DEDUCED from R112). -/
def Obligations.UndefinedCodes : Prop :=
  (∀ (s : State) (y : Addr), s.locked = false →
     (y.toNat ∉ [0o000, 0o001, 0o010, 0o011, 0o020, 0o021, 0o030, 0o031, 0o110, 0o111, 0o120, 0o121, 0o130, 0o131,
       0o200, 0o201, 0o210, 0o211, 0o220, 0o221, 0o230, 0o231, 0o300, 0o301, 0o310, 0o311, 0o320, 0o321, 0o330, 0o331,
       0o400, 0o410, 0o411, 0o412, 0o420, 0o421, 0o422, 0o430, 0o431, 0o432, 0o440, 0o441, 0o442, 0o450, 0o451, 0o452,
       0o500, 0o501, 0o510, 0o511, 0o520, 0o521, 0o522, 0o530, 0o531, 0o532, 0o540, 0o541,
       0o600, 0o601, 0o602, 0o610, 0o611] →
       exec (.inf y) s = .fault .undefinedInternalFunction)
       ∧ (y.toNat ∈ [0o000, 0o001, 0o010, 0o011, 0o020, 0o021, 0o030, 0o031, 0o200, 0o201, 0o210, 0o211, 0o220, 0o221,
         0o230, 0o231, 0o300, 0o301, 0o310, 0o311, 0o320, 0o321, 0o330, 0o331] →
         s.installed (bits y 3 2) = false → exec (.inf y) s = .fault .channelNotInstalled))
    ∧ (∀ s : State, s.Ready → s.stopRequest = false → s.needRni = false → s.resumed = none → s.half = .lower →
        bits s.u 18 6 = 0o63 ∨ (bits s.u 18 6 = 0o74 ∧ bits s.u 15 3 ≠ 7) ∨ bits s.u 42 6 = 0o74
          ∨ (bits s.u 42 6 = 0o63 ∧ characterPattern s.u = false) →
        step s = .fault .fortyEightBitCodeInLowerHalf)
    ∧ (∀ (s : State) (y : Addr),
        exec (.undefined772 y) s = .fault .undefinedCopyCode ∧ exec (.undefined774 y) s = .fault .undefinedProductCode)

/-- R350, R365, R383, R443: with the lockout on, the system active and Mode1 clear, INF and 74.0 to 74.6 are illegal.
That an augmented INF returns to its upper half is decision D43 of R442, the spec's own extension. -/
def Obligations.Lockout : Prop :=
  ∀ (s : State) (x : BitVec 2) (c : BitVec 12) (y m n : Addr) (i : Instr), s.lockout = true → s.intActive = true →
    s.mode1 = false → s.Undisturbed →
    i ∈ [Instr.inf y, .conn x c n, .extf x c n, .begr x m n, .begw x m n, .copy x, .clch x, .ccwd x n] →
    exec i s = .next s.trapped

/-- R367 to R369: SEN in either half, for every code of its table; a code of no row has no meaning in the upper half, so
the model stops there (U6, log 27). That an absent channel senses as inactive is decision D29 of R369 (log 21). -/
def Obligations.Sense : Prop :=
  ∀ (s : State) (y : Addr) (c : Bool) (x : BitVec 2),
    (s.half = .lower → exec (.sen y) s = .next s.next24)
      ∧ (s.half = .upper →
        ((y.toNat, c) ∈ [(8 * x.toNat, !(s.installed x && (s.channel x).active)),
            (8 * x.toNat + 1, s.installed x && (s.channel x).active),
            (0o110, decide (s.exit1 = .lower)), (0o111, decide (s.exit1 = .upper)),
            (0o120, decide (s.exit2 = .lower)), (0o121, decide (s.exit2 = .upper)),
            (0o130, decide (s.exit3 = .lower)), (0o131, decide (s.exit3 = .upper)),
            (0o210, s.mode1), (0o211, !s.mode1), (0o220, s.mode2), (0o221, !s.mode2),
            (0o230, s.mode3), (0o231, !s.mode3)] → exec (.sen y) s = .next (s.skipIf c))
        ∧ (y.toNat ∉ [0o000, 0o001, 0o010, 0o011, 0o020, 0o021, 0o030, 0o031, 0o110, 0o111, 0o120, 0o121, 0o130, 0o131,
            0o210, 0o211, 0o220, 0o221, 0o230, 0o231] → exec (.sen y) s = .fault .undefinedSense))

/-- R29 to R31, R370 to R372: the copies of the three interrupt registers, whose unassigned bits read as 0. Setting or
clearing bit i of IR or MASK, as R351 to R357 do, changes no other bit. -/
def Obligations.InterruptRegisters : Prop :=
  (∀ s : State,
     exec .cis s = .next ({ s with a := s.ir } : State).next24
       ∧ exec .cms s = .next ({ s with a := s.mask &&& 0o3700170074036076 } : State).next24
       ∧ exec .cpr s = .next ({ s with a := s.ir &&& s.mask } : State).next24
       ∧ s.ir &&& ~~~0o3700170074036076 = 0)
    ∧ (∀ (s : State) (i j : Nat), i < 48 →
        (s.setIr i).irff.getLsbD j = (decide (j = i) || s.irff.getLsbD j)
          ∧ (s.clearIr i).irff.getLsbD j = (!decide (j = i) && s.irff.getLsbD j)
          ∧ (s.setMask i).mask.getLsbD j = (decide (j = i) || s.mask.getLsbD j)
          ∧ (s.clearMask i).mask.getLsbD j = (!decide (j = i) && s.mask.getLsbD j))

/-! ## Input and output -/

/-- R383 item 4, R386, R405, R419: CONN. A busy channel rejects it; a reply connects the equipment, its absence
rejects and leaves nothing connected (decision D34 of R386, the spec's own reading; log 37). The typewriter replies
when it is switched on and has seen no parity error. A parity error in the code is answered by no one, and locks a
typewriter that the code names and that is on (log 37). A reject out of bounds leaves only the bounds fault and uses
the answer up (log 18). -/
def Obligations.Connect : Prop :=
  ∀ (s : State) (x : BitVec 2) (c : BitVec 12) (n : Addr) (replied : Bool), s.CanUse x →
    replied = (decide (s.answers.head? ≠ some .parity)
      && if s.typewriterNamed x c then s.console.typewriterOn && !s.typewriter.connLocked
         else decide (s.answers.head? = some .reply)) →
    ((s.channel x).active = true → s.CanJump n → exec (.conn x c n) s = .next (s.land n .upper))
      ∧ ((s.channel x).active = false → replied = true →
        exec (.conn x c n) s = .next (({ s with answers := s.answers.tail } : State).setChannel x { s.channel x with
          conn := some { equipment := bits c 9 3, unit := bits c 0 9 } }).advance)
      ∧ ((s.channel x).active = false → replied = false → s.CanJump n →
        exec (.conn x c n) s = .next ((({ s with
          answers := s.answers.tail
          typewriter := { s.typewriter with
            connLocked := s.typewriter.connLocked || (s.typewriterNamed x c && s.console.typewriterOn
              && decide (s.answers.head? = some .parity)) } } : State).setChannel x
          { s.channel x with conn := none }).land n .upper))
      ∧ ((s.channel x).active = false → replied = false → s.outOfBounds n = true → s.Undisturbed →
        exec (.conn x c n) s = .next ({ s with answers := s.answers.tail } : State).faulted)

/-- R387, R404, R405, R419: EXTF. A busy channel, no connection and no reply reject it; a parity error in the code
sets the channel's bit. That a typewriter that is on then replies to no function until it is cleared is the model's
reading (log 39, DEDUCED); else it performs its functions (logs 16 and 36). That a typewriter that is off does not
answer is log 37. A reject out of bounds leaves only the bounds fault and uses the answer up (log 18). -/
def Obligations.ExternalFunction : Prop :=
  ∀ (s : State) (x : BitVec 2) (c : BitVec 12) (n : Addr) (sent : State), s.CanUse x →
    sent = { s with answers := s.answers.tail } →
    ((s.channel x).active = true → s.CanJump n → exec (.extf x c n) s = .next (s.land n .upper))
      ∧ ((s.channel x).active = false → (s.channel x).conn = none → s.CanJump n →
        exec (.extf x c n) s = .next (s.land n .upper))
      ∧ ((s.channel x).active = false → (s.channel x).conn ≠ none → s.typewriterConnected x = false →
        (s.answers.head? = some .reply → exec (.extf x c n) s = .next sent.advance)
        ∧ (s.answers.head? ≠ some .reply → s.answers.head? ≠ some .parity → s.CanJump n →
          exec (.extf x c n) s = .next (sent.land n .upper))
        ∧ (s.answers.head? = some .parity → s.CanJump n →
          exec (.extf x c n) s = .next ((sent.setChannel x { s.channel x with parErr := true }).land n .upper))
        ∧ (s.answers.head? ≠ some .reply → s.outOfBounds n = true → s.Undisturbed →
          exec (.extf x c n) s = .next sent.faulted))
      ∧ ((s.channel x).active = false → s.typewriterConnected x = true →
        (s.console.typewriterOn = false → s.CanJump n → exec (.extf x c n) s = .next (sent.land n .upper))
        ∧ (s.console.typewriterOn = true → s.answers.head? = some .parity → s.CanJump n →
          exec (.extf x c n) s = .next (({ sent with
            typewriter := { s.typewriter with uncleared := true } } : State).setChannel x
            { s.channel x with parErr := true } |>.land n .upper))
        ∧ (s.console.typewriterOn = true → s.answers.head? ≠ some .parity → s.typewriter.uncleared = true →
          s.CanJump n → exec (.extf x c n) s = .next (sent.land n .upper))
        ∧ (s.console.typewriterOn = true → s.answers.head? ≠ some .parity → s.typewriter.uncleared = false →
          ∃ free late : Bool, exec (.extf x c n) s = .next ({ sent with
            draws := s.draws + 1
            typewriter := { s.typewriter with
              intSelected := if c.getLsbD 0 && c.getLsbD 1 then free
                else if c.getLsbD 0 then true else if c.getLsbD 1 then false else s.typewriter.intSelected
              intSignal := (s.typewriter.intSignal && !c.getLsbD 2)
                || (c.getLsbD 0 && (!c.getLsbD 1 || free)
                  && (s.typewriter.endOfLine || (s.typewriter.typeParity && !c.getLsbD 2)) && late)
              typeParity := s.typewriter.typeParity && !c.getLsbD 2 } } : State).advance)
        ∧ (s.console.typewriterOn = false ∨ s.answers.head? = some .parity ∨ s.typewriter.uncleared = true →
          s.outOfBounds n = true → s.Undisturbed → exec (.extf x c n) s = .next sent.faulted))

/-- R388, R389, R393, R406, R419: BEGR and BEGW. A busy channel rejects them; else the control word at m goes to the
channel, which becomes active unless the count is zero. That address and count are loaded with a count of zero too is
decision D35 of R388 (log 21). A write puts a connected typewriter in lower case. That it takes no part while a parity
error is uncleared (`opLocked`), and is busy while it shifts, is the model's reading (log 39, DEDUCED). -/
def Obligations.ReadAndWrite : Prop :=
  ∀ (s : State) (x : BitVec 2) (m n : Addr) (w : Word), s.CanUse x →
    ((s.channel x).active = true → s.CanJump n →
      exec (.begr x m n) s = .next (s.land n .upper) ∧ exec (.begw x m n) s = .next (s.land n .upper))
      ∧ ((s.channel x).active = false → s.Quiet → s.hasWord m = true → w = Memory.word s.memory m →
        (bits w 24 15 = 0 →
          exec (.begr x m n) s
              = .next (s.setChannel x { s.channel x with addr := bits w 0 15, count := 0 }).advance
            ∧ exec (.begw x m n) s
              = .next (s.setChannel x { s.channel x with addr := bits w 0 15, count := 0 }).advance)
        ∧ (bits w 24 15 ≠ 0 →
          exec (.begr x m n) s = .next ({ s.setChannel x { s.channel x with
              addr := bits w 0 15, count := bits w 24 15, dir := .read, active := true, assembly := 0, held := 0
              reverse := false, stepped := false, halted := false } with
              typewriter := { s.typewriter with
                opLocked := if s.typewriterConnected x then s.typewriter.uncleared else s.typewriter.opLocked }
              } : State).advance
            ∧ exec (.begw x m n) s = .next ({ s.setChannel x { s.channel x with
              addr := bits w 0 15, count := bits w 24 15, dir := .write, active := true, assembly := 0, held := 0
              reverse := false, stepped := false, halted := false } with
              typewriter := { s.typewriter with
                opLocked := if s.typewriterConnected x then s.typewriter.uncleared else s.typewriter.opLocked
                upper := s.typewriter.upper
                  && !(s.typewriterConnected x && s.console.typewriterOn && !s.typewriter.uncleared)
                busy := s.typewriter.busy || (s.typewriter.upper
                  && (s.typewriterConnected x && s.console.typewriterOn && !s.typewriter.uncleared)) }
              } : State).advance))

/-- R390, R391, R406: COPY puts address and count in A and status and interrupt lines in Q, zeros elsewhere (decision
D36 of R390, log 21); CLCH clears the channel, with the partial word in it (decision D37 of R391, log 21), and nothing
else, but IR bit 10 + x of an active channel is open (U17). A write that is cut off leaves the typewriter in lower
case; what its clear keeps is log 9. -/
def Obligations.CopyAndClear : Prop :=
  ∀ (s : State) (x : BitVec 2), s.CanUse x →
    exec (.copy x) s = .next ({ s with
        a := (0 : BitVec 9) ++ (s.channel x).count ++ (0 : BitVec 9) ++ (s.channel x).addr
        q := (0 : BitVec 16) ++ s.lines x ++ (0 : BitVec 12) ++ s.statusLines x } : State).advance
      ∧ ∃ (ff : Word) (d : Nat),
        exec (.clch x) s = .next (({ s with
            irff := ff, draws := d
            typewriter := if x = s.config.typewriterChannel then
                (if (s.channel x).active && s.typewriterWorks x && decide ((s.channel x).dir = .write) then
                  s.typewriter.toLowerCase else s.typewriter).masterClear
              else s.typewriter
          } : State).setChannel x { s.channel x with
            active := false, addr := 0, count := 0, conn := none, parErr := false, lines := 0, assembly := 0
            held := 0, reverse := false, stepped := false, halted := false }).advance
        ∧ (∀ j, j ≠ 10 + x.toNat → ff.getLsbD j = s.irff.getLsbD j)
        ∧ ((s.channel x).active = false → ff = s.irff ∧ d = s.draws)

/-- R392: CCWD. It is rejected when A holds no count or the channel is inactive; else the program waits, and at the end
of the block the channel goes on with the control word in A while the program goes on too. -/
def Obligations.ChangeControlWord : Prop :=
  ∀ (s : State) (x : BitVec 2) (n : Addr), s.CanUse x →
    (bits s.a 24 15 = 0 ∨ (s.channel x).active = false → s.CanJump n →
      exec (.ccwd x n) s = .next (s.land n .upper))
      ∧ (bits s.a 24 15 ≠ 0 → (s.channel x).active = true →
        exec (.ccwd x n) s = .next { s with slsStopped := false, ccwdWait := some x })
      ∧ (s.moves = [] → s.restartRequest = false → s.ccwdWait = some x → step s = .next s)
      ∧ (s.ccwdWait = some x → s.endOfBlock x
        = (s.setChannel x { s.channel x with addr := bits s.a 0 15, count := bits s.a 24 15 }).endWait)

/-- R394, R398, R400, R402, R407, R419: input from a connected equipment. Each byte goes to its place in the assembly
register, the places in reverse when the first byte of the word came with Reverse Assembly; a bad byte sets the
channel's parity error bit. The fourth byte stores the word and steps the control word; the last word of a block makes
the channel inactive and sets IR bit 10 + x, starts the computer that waits on Auto-Load, or lets a waiting CCWD
chain. With nothing connected no byte comes. That a channel that halts after a bad byte stores the word and stays active
is the model's form of what U18 leaves open (log 25), and that a key of the typewriter sends its code as one event and
one word is log 26 (DEDUCED). That an address which the storage lacks stops the model is decision D4 of R64 (U1, log 27,
DESIGN CHOICE), and the place of each byte is decision D5 of R70 and R398 (log 21). -/
def Obligations.ChannelInput : Prop :=
  ∀ (s : State) (x : BitVec 2) (byte : BitVec 12) (reversed bad halt r h : Bool) (w : Word) (c : Channel),
    s.installed x = true → (s.channel x).active = true → (s.channel x).dir = .read → (s.channel x).halted = false →
    r = (if (s.channel x).held = 0 then reversed else (s.channel x).reverse) → h = (bad && halt && s.selected (20 + x.toNat)) →
    w = setBits (s.channel x).assembly
      (if r then 12 * (s.channel x).held.toNat else 36 - 12 * (s.channel x).held.toNat) byte →
    c = { s.channel x with reverse := r, parErr := (s.channel x).parErr || bad, halted := h } →
    ((s.channel x).conn = none → (Async.byteIn x byte reversed bad halt).perform s = .next s)
      ∧ ((s.channel x).conn ≠ none → s.typewriterConnected x = false →
        ((s.channel x).held.toNat < 3 →
          (Async.byteIn x byte reversed bad halt).perform s
            = .next (s.setChannel x { c with assembly := w, held := (s.channel x).held + 1 }))
        ∧ ((s.channel x).held = 3 → s.hasWord (s.channel x).addr = true →
          ((s.channel x).count ≠ 1 ∨ h = true →
            (Async.byteIn x byte reversed bad halt).perform s = .next (({ s with
              memory := Memory.setWord s.memory (s.channel x).addr w } : State).setChannel x { c with
                addr := (s.channel x).addr + 1, count := (s.channel x).count - 1, assembly := 0, held := 0 }))
          ∧ ((s.channel x).count = 1 → h = false → s.ccwdWait ≠ some x → s.autoLoad ≠ some x →
            (Async.byteIn x byte reversed bad halt).perform s = .next ((({ s with
              memory := Memory.setWord s.memory (s.channel x).addr w } : State).setChannel x { c with
                addr := (s.channel x).addr + 1, count := 0, assembly := 0, held := 0, active := false }).setIr
                  (10 + x.toNat)))
          ∧ ((s.channel x).count = 1 → h = false → s.ccwdWait ≠ some x → s.autoLoad = some x →
            (Async.byteIn x byte reversed bad halt).perform s = .next ((({ s with
              memory := Memory.setWord s.memory (s.channel x).addr w
              autoLoad := none, running := true, needRni := true, half := .upper, augPending := false
              augT := AugT.zero, progress := .idle, resumed := none } : State).setChannel x { c with
                addr := (s.channel x).addr + 1, count := 0, assembly := 0, held := 0, active := false }).setIr
                  (10 + x.toNat)))
          ∧ ((s.channel x).count = 1 → h = false → s.ccwdWait = some x →
            (Async.byteIn x byte reversed bad halt).perform s = .next (({ s with
              memory := Memory.setWord s.memory (s.channel x).addr w } : State).setChannel x { c with
                addr := bits s.a 0 15, count := bits s.a 24 15, assembly := 0, held := 0 }).endWait))
        ∧ ((s.channel x).held = 3 → s.hasWord (s.channel x).addr = false →
          (Async.byteIn x byte reversed bad halt).perform s = .fault .noSuchStorage))
      ∧ (x = s.config.typewriterChannel → s.typewriterWorks x = true → s.hasWord (s.channel x).addr = true →
        (s.channel x).count ≠ 1 → ∀ code : BitVec 6,
          (Async.key code false false).perform s = .next (({ s with
            memory := Memory.setWord s.memory (s.channel x).addr (code.setWidth 48)
            typewriter := s.typewriter.strike code } : State).setChannel x { s.channel x with
              addr := (s.channel x).addr + 1, count := (s.channel x).count - 1, assembly := 0, held := 0 }))
      ∧ (x = s.config.typewriterChannel → s.typewriterWorks x = true → s.hasWord (s.channel x).addr = true →
        (s.channel x).count = 1 → ∀ code : BitVec 6,
          (s.ccwdWait ≠ some x → s.autoLoad ≠ some x →
            (Async.key code false false).perform s = .next ((({ s with
              memory := Memory.setWord s.memory (s.channel x).addr (code.setWidth 48)
              typewriter := s.typewriter.strike code } : State).setChannel x { s.channel x with
                addr := (s.channel x).addr + 1, count := 0, assembly := 0, held := 0, active := false }).setIr
                  (10 + x.toNat)))
          ∧ (s.ccwdWait ≠ some x → s.autoLoad = some x →
            (Async.key code false false).perform s = .next ((({ s with
              memory := Memory.setWord s.memory (s.channel x).addr (code.setWidth 48)
              typewriter := s.typewriter.strike code
              autoLoad := none, running := true, needRni := true, half := .upper, augPending := false
              augT := AugT.zero, progress := .idle, resumed := none } : State).setChannel x { s.channel x with
                addr := (s.channel x).addr + 1, count := 0, assembly := 0, held := 0, active := false }).setIr
                  (10 + x.toNat)))
          ∧ (s.ccwdWait = some x →
            (Async.key code false false).perform s = .next (({ s with
              memory := Memory.setWord s.memory (s.channel x).addr (code.setWidth 48)
              typewriter := s.typewriter.strike code } : State).setChannel x { s.channel x with
                addr := bits s.a 0 15, count := bits s.a 24 15, assembly := 0, held := 0 }).endWait))

/-- R392, R394, R397, R400, R402, R406, R407, R417, R419, decision D33: output and End of Record. A word is read from
storage, its registers stepped then or with its last byte, and sent in four bytes, bits 47..36 first; a typewriter
that is at work types them. The last byte of a block makes the channel inactive and sets IR bit 10 + x, or lets a
waiting CCWD chain. End of Record makes a reading channel inactive, after a partial word is stored; the order of the
bytes of a reverse assembled one is open (U16). The End of Record switch of the typewriter stores a word of zeros
first, while the console is live. A channel that becomes inactive ends a waiting CCWD, which is then a pass (decision
D38), and starts the computer that waits on Auto-Load. With nothing connected nothing comes and nothing is taken. That
a channel that halts after a bad byte stays active is the model's form of U18 (log 25), and that the typewriter is
busy from the moment a word is presented is log 39 (DEDUCED). That an address which the storage lacks stops the model is
decision D4 of R64 (U1, log 27, DESIGN CHOICE), and the order of the bytes is decision D5 of R70 (log 21). -/
def Obligations.ChannelOutputAndEnd : Prop :=
  ∀ (s : State) (x : BitVec 2), s.installed x = true → (s.channel x).active = true → (s.channel x).halted = false →
    (∀ stepNow : Bool, (s.channel x).dir = .write → (s.channel x).held = 0 → (s.channel x).count ≠ 0 →
      s.hasWord (s.channel x).addr = true →
      (Async.wordOut x stepNow).perform s = .next (({ s.setIrIf 45 (decide ((s.channel x).addr ∈ s.badParity)) with
        typewriter := { s.typewriter with busy := s.typewriter.busy || s.typewriterWorks x } } : State).setChannel x
        { s.channel x with
          assembly := Memory.word s.memory (s.channel x).addr, held := 4, stepped := stepNow
          addr := if stepNow then (s.channel x).addr + 1 else (s.channel x).addr
          count := if stepNow then (s.channel x).count - 1 else (s.channel x).count }))
      ∧ ((s.channel x).conn = none → ∀ bad halt : Bool,
        (Async.byteOut x bad halt).perform s = .next s ∧ (Async.endOfRecord x).perform s = .next s)
      ∧ ((s.channel x).dir = .write → (s.channel x).conn ≠ none → s.typewriterConnected x = false →
        ∀ (bad halt h : Bool) (c : Channel), h = (bad && halt && s.selected (20 + x.toNat)) →
        c = { s.channel x with
          held := (s.channel x).held - 1, parErr := (s.channel x).parErr || bad, halted := h
          addr := if (s.channel x).held = 1 ∧ (s.channel x).stepped = false then (s.channel x).addr + 1
            else (s.channel x).addr
          count := if (s.channel x).held = 1 ∧ (s.channel x).stepped = false then (s.channel x).count - 1
            else (s.channel x).count } →
        ((s.channel x).held ∈ [2, 3, 4] ∨ ((s.channel x).held = 1 ∧ (c.count ≠ 0 ∨ h = true)) →
          (Async.byteOut x bad halt).perform s = .next (s.setChannel x c))
        ∧ ((s.channel x).held = 1 → c.count = 0 → h = false → s.ccwdWait ≠ some x →
          (Async.byteOut x bad halt).perform s
            = .next (((s.setChannel x { c with active := false }).setIr (10 + x.toNat)).wentInactive x))
        ∧ ((s.channel x).held = 1 → c.count = 0 → h = false → s.ccwdWait = some x →
          (Async.byteOut x bad halt).perform s = .next (s.setChannel x
            { c with addr := bits s.a 0 15, count := bits s.a 24 15 }).endWait))
      ∧ (∀ e : State, e.wentInactive x =
        if e.ccwdWait = some x then e.endWait
        else if e.autoLoad = some x then { e with
          autoLoad := none, running := true, needRni := true, half := .upper, augPending := false
          augT := AugT.zero, progress := .idle, resumed := none }
        else e)
      ∧ (∀ c : Channel, (c.held = 4 → c.outByte = bits c.assembly 36 12) ∧ (c.held = 3 → c.outByte = bits c.assembly 24 12)
        ∧ (c.held = 2 → c.outByte = bits c.assembly 12 12) ∧ (c.held = 1 → c.outByte = bits c.assembly 0 12))
      ∧ ((s.channel x).dir = .write → s.typewriterWorks x = true → (s.channel x).held ≠ 0 →
        s.typewriter.disturbed = false → ∃ (t : State) (upper : Bool), (Async.byteOut x false false).perform s = .next t
          ∧ (upper = if bits (s.channel x).outByte 6 6 = 0o64 then true
             else if bits (s.channel x).outByte 6 6 = 0o66 then false else s.typewriter.upper)
          ∧ t.typewriter.output = s.typewriter.output
            ++ [(bits (s.channel x).outByte 6 6, typewriterGlyph s.typewriter.upper (bits (s.channel x).outByte 6 6)),
              (bits (s.channel x).outByte 0 6, typewriterGlyph upper (bits (s.channel x).outByte 0 6))])
      ∧ ((s.channel x).dir = .read → (s.channel x).conn ≠ none → s.typewriterConnected x = false →
        ((s.channel x).held = 0 →
          (Async.endOfRecord x).perform s
            = .next (((s.setChannel x { s.channel x with active := false }).setIr (10 + x.toNat)).wentInactive x))
        ∧ ((s.channel x).held ≠ 0 → s.hasWord (s.channel x).addr = true →
          ∃ (n d : Nat), ((s.channel x).reverse = false → n = 0 ∧ d = s.draws) ∧
            (Async.endOfRecord x).perform s = .next (((({ s with
              memory := Memory.setWord s.memory (s.channel x).addr (arrange (s.channel x).assembly n)
              draws := d } : State).setChannel x { s.channel x with
                addr := (s.channel x).addr + 1, count := (s.channel x).count - 1, assembly := 0, held := 0
                active := false }).setIr (10 + x.toNat)).wentInactive x))
        ∧ ((s.channel x).held ≠ 0 → s.hasWord (s.channel x).addr = false →
          (Async.endOfRecord x).perform s = .fault .noSuchStorage))
      ∧ (x = s.config.typewriterChannel → (s.channel x).dir = .read → s.typewriterWorks x = true →
        s.hasWord (s.channel x).addr = true →
        (s.systemActive = true ∨ s.console.maintenance = true →
          Async.typewriterEndOfRecord.perform s = .next (((({ s with
            memory := Memory.setWord s.memory (s.channel x).addr 0 } : State).setChannel x { s.channel x with
              addr := (s.channel x).addr + 1, count := (s.channel x).count - 1, assembly := 0, held := 0
              active := false }).setIr (10 + x.toNat)).wentInactive x))
        ∧ (s.systemActive = false → s.console.maintenance = false →
          Async.typewriterEndOfRecord.perform s = .next s))

/-! ## Illegal codes, clears, the whole machine -/

/-- R102, R442: the illegal codes take the Category III interrupt, in either half and whatever their other bits. This is
said of exec: no step meets f = 63 in the lower half, where the model stops (log 27, `UndefinedCodes`). That an
augmented one returns to its upper half is decision D43 of R442, the spec's own extension. The state given is that of an
entry with no channel event inside it and good parity (log 11). -/
def Obligations.IllegalCodes : Prop :=
  ∀ (s : State) (r : BitVec 18) (r42 : BitVec 42) (r39 : Rest747) (y : Addr) (i : Instr), s.Undisturbed →
    i ∈ [Instr.illegal00 r, .illegal26 r, .illegal27 r, .illegal62 r, .illegal63 r42, .illegal747 r39, .illegal777 y] →
    exec i s = .next s.trapped

/-- R480, R483: what the Internal Master Clear clears and what it leaves, and the return jump of Restart. That Restart
stores P also between the two halves of a step is decision D44 of R483 (log 21); that it ends a CCWD, which its External
Master Clear makes a pass, and stores the address after it is the model's reading (log 35, DEDUCED). -/
def Obligations.ClearAndRestart : Prop :=
  ∀ s : State,
    (s.internalClear.a = 0 ∧ s.internalClear.q = 0 ∧ s.internalClear.u = 0 ∧ s.internalClear.p = 0
      ∧ (∀ b, s.internalClear.b b = 0) ∧ s.internalClear.half = .upper ∧ s.internalClear.running = false
      ∧ s.internalClear.needRni = true ∧ s.internalClear.slsStopped = false ∧ s.internalClear.augPending = false
      ∧ s.internalClear.intActive = false ∧ s.internalClear.lockout = false ∧ s.internalClear.mode1 = false
      ∧ s.internalClear.mode2 = false ∧ s.internalClear.mode3 = false
      ∧ (∀ j ∈ [1, 2, 3, 4, 5, 42, 43, 45, 46], s.internalClear.irff.getLsbD j = false)
      ∧ s.internalClear.memory = s.memory ∧ s.internalClear.bl = s.bl ∧ s.internalClear.bu = s.bu)
      ∧ (Memory.wf s.memory = true → s.badParity = [] →
        s.restart.p = 0 ∧ s.restart.half = .lower ∧ s.restart.running = true ∧ s.restart.intActive = false
          ∧ bits (Memory.word s.restart.memory 0) 24 15 = (if s.ccwdWait = none then s.p else s.nextP)
          ∧ s.restart.ccwdWait = none
          ∧ (∀ a, a ≠ 0 → Memory.word s.restart.memory a = Memory.word s.memory a)
          ∧ ∀ x, s.installed x = true → (s.restart.channel x).active = false ∧ (s.restart.channel x).conn = none)

/-- The invariant holds after reset; so do the values that a master clear gives, R480 to R482. -/
def Obligations.ResetSound : Prop :=
  State.reset.Sound ∧ State.reset.p = 0 ∧ State.reset.running = false ∧ State.reset.intActive = false
    ∧ State.reset.lockout = false ∧ State.reset.mode1 = false ∧ State.reset.mode2 = false
    ∧ State.reset.mode3 = false ∧ State.reset.anyActive = false

/-- Every step keeps the invariant: the memory stays in canonical form, and an augment is pending only before a lower
instruction that is in U (R45). -/
def Obligations.StepKeepsSound : Prop :=
  ∀ s t : State, s.Sound → step s = .next t → t.Sound

/-- No step changes the installation. -/
def Obligations.ConfigKept : Prop :=
  ∀ s t : State, step s = .next t → t.config = s.config

/-! ## Sources of interrupts -/

/-- R29, R401, R419, R460, R462, R470: which conditions the Interrupt register shows, and the two sources that are
recorded only when they are selected. That a tick sets nothing without MASK bit 44, and is lost while CCWD waits, is
decision D27 of R462 (log 21); the Manual Interrupt switch works only with System Active or Maintenance Mode on. -/
def Obligations.InterruptSources : Prop :=
  ∀ (s : State) (x : BitVec 2),
    s.ir.getLsbD (20 + x.toNat) = (s.installed x && (s.channel x).parErr)
      ∧ s.ir.getLsbD (30 + x.toNat) = (s.installed x && decide (s.lines x ≠ 0))
      ∧ (∀ j ∈ [1, 2, 3, 4, 5, 10, 11, 12, 13, 42, 43, 44, 45, 46], s.ir.getLsbD j = s.irff.getLsbD j)
      ∧ Async.tick.perform s = .next (if s.mask.getLsbD 44 && s.ccwdWait.isNone then s.setIr 44 else s)
      ∧ Async.manualInterrupt.perform s
          = .next (if (s.systemActive || s.console.maintenance) && s.mask.getLsbD 43 then s.setIr 43 else s)
end

