-- ==== Sys2Proof/Laws/Fields.lean ====
section
/-! SUPPORT. Reading a field back after writing it, and after writing another. -/

namespace Sys2Proof

theorem getLsbD_bits {n : Nat} (w : BitVec n) (lo len i : Nat) :
    (bits w lo len).getLsbD i = (decide (i < len) && w.getLsbD (lo + i)) := by
  simp [bits, BitVec.getLsbD_extractLsb']

theorem getLsbD_setBits {n k : Nat} (w : BitVec n) (lo : Nat) (v : BitVec k) (i : Nat) (hi : i < n) :
    (setBits w lo v).getLsbD i
      = if lo ≤ i ∧ i < lo + k then v.getLsbD (i - lo) else w.getLsbD i := by
  simp only [setBits, BitVec.getLsbD_or, BitVec.getLsbD_and, BitVec.getLsbD_not, BitVec.getLsbD_shiftLeft,
    BitVec.getLsbD_setWidth, BitVec.getLsbD_allOnes]
  by_cases h1 : lo ≤ i
  · by_cases h2 : i < lo + k
    · have : i - lo < k := by omega
      have h3 : i - lo < n := by omega
      have h4 : ¬ i < lo := by omega
      simp [h1, h2, this, h3, h4, hi]
    · have : ¬ (i - lo < k) := by omega
      have hv : v.getLsbD (i - lo) = false := BitVec.getLsbD_of_ge _ _ (by omega)
      simp [h2, this, hv, hi]
  · have h4 : i < lo := by omega
    have : ¬ (lo ≤ i ∧ i < lo + k) := by omega
    simp [this, h4, hi]

theorem getLsbD_setBits_of_ge {n k : Nat} (w : BitVec n) (lo : Nat) (v : BitVec k) (i : Nat) (hi : n ≤ i) :
    (setBits w lo v).getLsbD i = false := BitVec.getLsbD_of_ge _ _ hi

/-- A field reads as it was written. -/
theorem bits_setBits_same {n k : Nat} (w : BitVec n) (lo : Nat) (v : BitVec k) (h : lo + k ≤ n) :
    bits (setBits w lo v) lo k = v := by
  apply BitVec.eq_of_getLsbD_eq
  intro i hi
  rw [getLsbD_bits, getLsbD_setBits _ _ _ _ (by omega)]
  simp [hi]

/-- Writing a field leaves a disjoint one alone. -/
theorem bits_setBits_apart {n k : Nat} (w : BitVec n) (lo : Nat) (v : BitVec k) (lo' k' : Nat)
    (h : lo' + k' ≤ n) (d : lo + k ≤ lo' ∨ lo' + k' ≤ lo) :
    bits (setBits w lo v) lo' k' = bits w lo' k' := by
  apply BitVec.eq_of_getLsbD_eq
  intro i hi
  rw [getLsbD_bits, getLsbD_bits, getLsbD_setBits _ _ _ _ (by omega)]
  have : ¬ (lo ≤ lo' + i ∧ lo' + i < lo + k) := by omega
  simp [this]

/-- Writing places leaves every other bit alone. -/
theorem getLsbD_scatter {n : Nat} (w : BitVec n) (places : Places) (v i : Nat) (h : i ∉ places) :
    (scatter w places v).getLsbD i = w.getLsbD i := by
  induction places generalizing v with
  | nil => rfl
  | cons p rest ih =>
    simp only [List.mem_cons, not_or] at h
    simp only [scatter]
    by_cases hi : i < n
    · rw [getLsbD_setBits _ _ _ _ hi, ih _ h.2]
      have : ¬ (p ≤ i ∧ i < p + 1) := by omega
      rw [if_neg this]
    · rw [BitVec.getLsbD_of_ge _ _ (by omega), BitVec.getLsbD_of_ge _ _ (by omega)]

/-- What is read at some places depends on their bits only. -/
theorem gather_congr {n k : Nat} (w : BitVec n) (w' : BitVec k) (places : Places)
    (h : ∀ p ∈ places, w.getLsbD p = w'.getLsbD p) : gather w places = gather w' places := by
  induction places with
  | nil => rfl
  | cons p rest ih =>
    simp only [gather]
    rw [h p (by simp), ih (fun q hq => h q (by simp [hq]))]

/-- Places read as they were written. -/
theorem gather_scatter_same {n : Nat} (w : BitVec n) (places : Places) (v : Nat) (hn : places.Nodup)
    (hl : ∀ p ∈ places, p < n) : gather (scatter w places v) places = v % 2 ^ places.length := by
  induction places generalizing v with
  | nil => simp [gather, Nat.mod_one]
  | cons p rest ih =>
    rw [List.nodup_cons] at hn
    have hp : p < n := hl p (by simp)
    have hr : gather (scatter w (p :: rest) v) rest = v / 2 % 2 ^ rest.length := by
      rw [← ih (v / 2) hn.2 (fun q hq => hl q (by simp [hq]))]
      apply gather_congr
      intro q hq
      simp only [scatter]
      rw [getLsbD_setBits _ _ _ _ (hl q (by simp [hq]))]
      have : q ≠ p := fun e => hn.1 (e ▸ hq)
      have : ¬ (p ≤ q ∧ q < p + 1) := by omega
      rw [if_neg this]
    have hb : ((scatter w (p :: rest) v).getLsbD p).toNat = v % 2 := by
      simp only [scatter]
      rw [getLsbD_setBits _ _ _ _ hp]
      have hz : (BitVec.ofNat 1 v).getLsbD (p - p) = decide (v % 2 = 1) := by
        rw [Nat.sub_self, BitVec.getLsbD_ofNat, Nat.testBit_zero]
        simp
      rw [if_pos ⟨Nat.le_refl p, Nat.lt_succ_self p⟩, hz]
      rcases Nat.mod_two_eq_zero_or_one v with h | h <;> simp [h]
    simp only [gather]
    rw [hb, hr, List.length_cons, Nat.pow_succ, Nat.mul_comm (2 ^ rest.length) 2, Nat.mod_mul]

/-- Writing places leaves what is read at others alone. -/
theorem gather_scatter_apart {n : Nat} (w : BitVec n) (places others : Places) (v : Nat)
    (h : ∀ p ∈ others, p ∉ places) : gather (scatter w places v) others = gather w others :=
  gather_congr _ _ _ (fun p hp => getLsbD_scatter w places v p (h p hp))

/-- Writing places leaves a field in one piece alone that has none of them. -/
theorem bits_scatter_apart {n : Nat} (w : BitVec n) (places : Places) (v lo len : Nat)
    (h : ∀ p ∈ places, p < lo ∨ lo + len ≤ p) : bits (scatter w places v) lo len = bits w lo len := by
  apply BitVec.eq_of_getLsbD_eq
  intro i hi
  rw [getLsbD_bits, getLsbD_bits, getLsbD_scatter _ _ _ _ (fun hm => by have := h _ hm; omega)]

end Sys2Proof
end

