-- ==== Sys2Proof/Laws/Memory.lean ====
section
/-! SUPPORT. The laws of the memory: reading after writing, and the canonical form kept. -/

namespace Sys2Proof.Machine

theorem Memory.startsAt_of_le (mem : Memory) (a b : Nat) (h : a ≤ b) (hs : Memory.startsAt mem b = true) :
    Memory.startsAt mem a = true := by
  cases mem with
  | nil => rfl
  | cons c rest => simp [Memory.startsAt] at *; omega

/-- An address below the first entry reads as unlisted. -/
theorem Memory.byte_of_startsAt (mem : Memory) (a : Nat) (hw : Memory.wf mem = true)
    (hs : Memory.startsAt mem (a + 1) = true) : Memory.byte mem a = Memory.unlisted := by
  induction mem with
  | nil => rfl
  | cons c rest ih =>
    obtain ⟨k, v⟩ := c
    simp only [Memory.startsAt, decide_eq_true_eq] at hs
    simp only [Memory.wf, Bool.and_eq_true, decide_eq_true_eq] at hw
    have : a ≠ k := by omega
    simp only [Memory.byte, this, if_false]
    exact ih hw.2 (Memory.startsAt_of_le _ _ _ (by omega) hw.1.2)

/-- A byte reads as it was written. -/
theorem Memory.byte_put_same (mem : Memory) (a : Nat) (v : Byte) (hw : Memory.wf mem = true) :
    Memory.byte (Memory.put mem a v) a = v := by
  induction mem with
  | nil => by_cases h : v = Memory.unlisted <;> simp [Memory.put, Memory.byte, h]
  | cons c rest ih =>
    obtain ⟨k, w⟩ := c
    have hw' := hw
    simp only [Memory.wf, Bool.and_eq_true, decide_eq_true_eq] at hw'
    simp only [Memory.put]
    split
    · rename_i h
      split
      · rename_i hv
        subst hv
        exact Memory.byte_of_startsAt _ _ hw (by simp [Memory.startsAt]; omega)
      · simp [Memory.byte]
    · split
      · rename_i h
        subst h
        split
        · rename_i hv
          subst hv
          exact Memory.byte_of_startsAt _ _ hw'.2 hw'.1.2
        · simp [Memory.byte]
      · rename_i h
        simp only [Memory.byte, h, if_false]
        exact ih hw'.2

/-- Writing a byte leaves every other byte alone. -/
theorem Memory.byte_put_other (mem : Memory) (a b : Nat) (v : Byte) (hw : Memory.wf mem = true) (h : b ≠ a) :
    Memory.byte (Memory.put mem a v) b = Memory.byte mem b := by
  induction mem with
  | nil => by_cases hv : v = Memory.unlisted <;> simp [Memory.put, Memory.byte, hv, h]
  | cons c rest ih =>
    obtain ⟨k, w⟩ := c
    have hw' := hw
    simp only [Memory.wf, Bool.and_eq_true, decide_eq_true_eq] at hw'
    simp only [Memory.put]
    split
    · split
      · rfl
      · simp [Memory.byte, h]
    · split
      · rename_i hk
        subst hk
        split <;> simp [Memory.byte, h]
      · simp only [Memory.byte]
        split
        · rfl
        · exact ih hw'.2

theorem Memory.startsAt_put (mem : Memory) (a : Nat) (v : Byte) (low : Nat) (ha : low ≤ a)
    (hw : Memory.wf mem = true) (hs : Memory.startsAt mem low = true) :
    Memory.startsAt (Memory.put mem a v) low = true := by
  cases mem with
  | nil => by_cases hv : v = Memory.unlisted <;> simp [Memory.put, Memory.startsAt, hv, ha]
  | cons c rest =>
    obtain ⟨k, w⟩ := c
    simp only [Memory.wf, Bool.and_eq_true, decide_eq_true_eq] at hw
    simp only [Memory.startsAt, decide_eq_true_eq] at hs
    simp only [Memory.put]
    split
    · split <;> simp [Memory.startsAt, hs, ha]
    · split
      · split
        · exact Memory.startsAt_of_le _ _ _ (by omega) hw.1.2
        · simp [Memory.startsAt, ha]
      · simp [Memory.startsAt, hs]

/-- A write keeps the canonical form. -/
theorem Memory.wf_put (mem : Memory) (a : Nat) (v : Byte) (ha : a < Memory.cells) (hw : Memory.wf mem = true) :
    Memory.wf (Memory.put mem a v) = true := by
  induction mem with
  | nil => by_cases hv : v = Memory.unlisted <;> simp [Memory.put, Memory.wf, Memory.startsAt, hv, ha]
  | cons c rest ih =>
    obtain ⟨k, w⟩ := c
    have hw' := hw
    simp only [Memory.wf, Bool.and_eq_true, decide_eq_true_eq] at hw'
    simp only [Memory.put]
    split
    · rename_i h
      split
      · exact hw
      · rename_i hv
        simp only [Memory.wf, Bool.and_eq_true, decide_eq_true_eq]
        refine ⟨⟨⟨hv, ha⟩, ?_⟩, ?_⟩
        · simp [Memory.startsAt]; omega
        · exact hw'
    · split
      · rename_i h
        subst h
        split
        · exact hw'.2
        · rename_i hv
          simp only [Memory.wf, Bool.and_eq_true, decide_eq_true_eq]
          exact ⟨⟨⟨hv, ha⟩, hw'.1.2⟩, hw'.2⟩
      · rename_i h1 h2
        simp only [Memory.wf, Bool.and_eq_true, decide_eq_true_eq]
        exact ⟨⟨hw'.1.1, Memory.startsAt_put _ _ _ _ (by omega) hw'.2 hw'.1.2⟩, ih hw'.2⟩

/-- A word store keeps the canonical form. -/
theorem Memory.wf_setWord (mem : Memory) (a : Addr) (w : Word) (hw : Memory.wf mem = true) :
    Memory.wf (Memory.setWord mem a w) = true := by
  have ha : 6 * a.toNat + 5 < Memory.cells := by
    have := a.isLt
    simp only [Memory.cells]
    omega
  unfold Memory.setWord
  repeat' first
    | exact hw
    | (refine Memory.wf_put _ _ _ (by omega) ?_)

/-- A partial store keeps the canonical form. -/
theorem Memory.wf_setField {k : Nat} (mem : Memory) (a : Addr) (lo : Nat) (v : BitVec k)
    (hw : Memory.wf mem = true) : Memory.wf (Memory.setField mem a lo v) = true :=
  Memory.wf_setWord _ _ _ hw

/-- A word store changes no byte outside its six. -/
theorem Memory.byte_setWord_other (mem : Memory) (a : Addr) (w : Word) (b : Nat) (hw : Memory.wf mem = true)
    (h : b < 6 * a.toNat ∨ 6 * a.toNat + 6 ≤ b) :
    Memory.byte (Memory.setWord mem a w) b = Memory.byte mem b := by
  have ha : 6 * a.toNat + 5 < Memory.cells := by
    have := a.isLt
    simp only [Memory.cells]
    omega
  unfold Memory.setWord
  rw [Memory.byte_put_other, Memory.byte_put_other, Memory.byte_put_other, Memory.byte_put_other,
    Memory.byte_put_other, Memory.byte_put_other]
  all_goals first
    | omega
    | (repeat' first
        | exact hw
        | (refine Memory.wf_put _ _ _ (by omega) ?_))

/-- A word store leaves every other word alone. -/
theorem Memory.word_setWord_other (mem : Memory) (a b : Addr) (w : Word) (hw : Memory.wf mem = true) (h : b ≠ a) :
    Memory.word (Memory.setWord mem a w) b = Memory.word mem b := by
  have hn : b.toNat ≠ a.toNat := fun e => h (BitVec.eq_of_toNat_eq e)
  have hb : ∀ i, i < 6 → Memory.byte (Memory.setWord mem a w) (6 * b.toNat + i) = Memory.byte mem (6 * b.toNat + i) :=
    fun i hi => Memory.byte_setWord_other _ _ _ _ hw (by omega)
  have h0 := hb 0 (by omega)
  simp only [Nat.add_zero] at h0
  simp only [Memory.word, h0, hb 1 (by omega), hb 2 (by omega), hb 3 (by omega), hb 4 (by omega), hb 5 (by omega)]

theorem Memory.append_bytes (w : Word) :
    (bits w 40 8 ++ bits w 32 8 ++ bits w 24 8 ++ bits w 16 8 ++ bits w 8 8 ++ bits w 0 8 : BitVec 48) = w := by
  apply BitVec.eq_of_getLsbD_eq
  intro i hi
  simp only [BitVec.getLsbD_append, getLsbD_bits]
  split
  · rename_i h; simp [h]
  · split
    · rename_i h1 h2
      have e : 8 + (i - 8) = i := by omega
      simp [h2, e]
    · split
      · rename_i h1 h2 h3
        have e : 16 + (i - 8 - 8) = i := by omega
        simp [h3, e]
      · split
        · rename_i h1 h2 h3 h4
          have e : 24 + (i - 8 - 8 - 8) = i := by omega
          simp [h4, e]
        · split
          · rename_i h1 h2 h3 h4 h5
            have e : 32 + (i - 8 - 8 - 8 - 8) = i := by omega
            simp [h5, e]
          · rename_i h1 h2 h3 h4 h5
            have e : 40 + (i - 8 - 8 - 8 - 8 - 8) = i := by omega
            have e2 : i - 8 - 8 - 8 - 8 - 8 < 8 := by omega
            simp [e2, e]

/-- A word reads as it was written. -/
theorem Memory.word_setWord_same (mem : Memory) (a : Addr) (w : Word) (hw : Memory.wf mem = true) :
    Memory.word (Memory.setWord mem a w) a = w := by
  have ha : 6 * a.toNat + 5 < Memory.cells := by
    have := a.isLt
    simp only [Memory.cells]
    omega
  have w0 := Memory.wf_put mem (6 * a.toNat) (bits w 40 8) (by omega) hw
  have w1 := Memory.wf_put _ (6 * a.toNat + 1) (bits w 32 8) (by omega) w0
  have w2 := Memory.wf_put _ (6 * a.toNat + 2) (bits w 24 8) (by omega) w1
  have w3 := Memory.wf_put _ (6 * a.toNat + 3) (bits w 16 8) (by omega) w2
  have w4 := Memory.wf_put _ (6 * a.toNat + 4) (bits w 8 8) (by omega) w3
  conv => rhs; rw [← Memory.append_bytes w]
  unfold Memory.word Memory.setWord
  rw [Memory.byte_put_same _ (6 * a.toNat + 5) _ w4]
  rw [Memory.byte_put_other _ (6 * a.toNat + 5) (6 * a.toNat + 4) _ w4 (by omega), Memory.byte_put_same _ _ _ w3]
  rw [Memory.byte_put_other _ (6 * a.toNat + 5) (6 * a.toNat + 3) _ w4 (by omega),
    Memory.byte_put_other _ (6 * a.toNat + 4) (6 * a.toNat + 3) _ w3 (by omega), Memory.byte_put_same _ _ _ w2]
  rw [Memory.byte_put_other _ (6 * a.toNat + 5) (6 * a.toNat + 2) _ w4 (by omega),
    Memory.byte_put_other _ (6 * a.toNat + 4) (6 * a.toNat + 2) _ w3 (by omega),
    Memory.byte_put_other _ (6 * a.toNat + 3) (6 * a.toNat + 2) _ w2 (by omega), Memory.byte_put_same _ _ _ w1]
  rw [Memory.byte_put_other _ (6 * a.toNat + 5) (6 * a.toNat + 1) _ w4 (by omega),
    Memory.byte_put_other _ (6 * a.toNat + 4) (6 * a.toNat + 1) _ w3 (by omega),
    Memory.byte_put_other _ (6 * a.toNat + 3) (6 * a.toNat + 1) _ w2 (by omega),
    Memory.byte_put_other _ (6 * a.toNat + 2) (6 * a.toNat + 1) _ w1 (by omega), Memory.byte_put_same _ _ _ w0]
  rw [Memory.byte_put_other _ (6 * a.toNat + 5) (6 * a.toNat) _ w4 (by omega),
    Memory.byte_put_other _ (6 * a.toNat + 4) (6 * a.toNat) _ w3 (by omega),
    Memory.byte_put_other _ (6 * a.toNat + 3) (6 * a.toNat) _ w2 (by omega),
    Memory.byte_put_other _ (6 * a.toNat + 2) (6 * a.toNat) _ w1 (by omega),
    Memory.byte_put_other _ (6 * a.toNat + 1) (6 * a.toNat) _ w0 (by omega), Memory.byte_put_same _ _ _ hw]

/-- The memory after reset is canonical. -/
theorem reset_memory_wf : Memory.wf State.reset.memory = true := rfl

end Sys2Proof.Machine
end

