-- ==== Sys2Proof/Laws/State.lean ====
section
/-! SUPPORT. One lemma per field for the updates of the state that every instruction is built from. -/

namespace Sys2Proof.Machine

/-! `finish` leaves every field it does not write. -/

@[simp] theorem State.finish_config (s : State) : (s.finish).config = s.config := rfl
@[simp] theorem State.finish_a (s : State) : (s.finish).a = s.a := rfl
@[simp] theorem State.finish_q (s : State) : (s.finish).q = s.q := rfl
@[simp] theorem State.finish_index (s : State) : (s.finish).index = s.index := rfl
@[simp] theorem State.finish_p (s : State) : (s.finish).p = s.p := rfl
@[simp] theorem State.finish_u (s : State) : (s.finish).u = s.u := rfl
@[simp] theorem State.finish_half (s : State) : (s.finish).half = s.half := rfl
@[simp] theorem State.finish_needRni (s : State) : (s.finish).needRni = s.needRni := rfl
@[simp] theorem State.finish_irff (s : State) : (s.finish).irff = s.irff := rfl
@[simp] theorem State.finish_mask (s : State) : (s.finish).mask = s.mask := rfl
@[simp] theorem State.finish_intActive (s : State) : (s.finish).intActive = s.intActive := rfl
@[simp] theorem State.finish_mode1 (s : State) : (s.finish).mode1 = s.mode1 := rfl
@[simp] theorem State.finish_mode2 (s : State) : (s.finish).mode2 = s.mode2 := rfl
@[simp] theorem State.finish_mode3 (s : State) : (s.finish).mode3 = s.mode3 := rfl
@[simp] theorem State.finish_exit1 (s : State) : (s.finish).exit1 = s.exit1 := rfl
@[simp] theorem State.finish_exit2 (s : State) : (s.finish).exit2 = s.exit2 := rfl
@[simp] theorem State.finish_exit3 (s : State) : (s.finish).exit3 = s.exit3 := rfl
@[simp] theorem State.finish_lockout (s : State) : (s.finish).lockout = s.lockout := rfl
@[simp] theorem State.finish_bl (s : State) : (s.finish).bl = s.bl := rfl
@[simp] theorem State.finish_bu (s : State) : (s.finish).bu = s.bu := rfl
@[simp] theorem State.finish_memory (s : State) : (s.finish).memory = s.memory := rfl
@[simp] theorem State.finish_badParity (s : State) : (s.finish).badParity = s.badParity := rfl
@[simp] theorem State.finish_channels (s : State) : (s.finish).channels = s.channels := rfl
@[simp] theorem State.finish_typewriter (s : State) : (s.finish).typewriter = s.typewriter := rfl
@[simp] theorem State.finish_console (s : State) : (s.finish).console = s.console := rfl
@[simp] theorem State.finish_systemActive (s : State) : (s.finish).systemActive = s.systemActive := rfl
@[simp] theorem State.finish_ccwdWait (s : State) : (s.finish).ccwdWait = s.ccwdWait := rfl
@[simp] theorem State.finish_autoLoad (s : State) : (s.finish).autoLoad = s.autoLoad := rfl
@[simp] theorem State.finish_passedExit (s : State) : (s.finish).passedExit = s.passedExit := rfl
@[simp] theorem State.finish_restartRequest (s : State) : (s.finish).restartRequest = s.restartRequest := rfl
@[simp] theorem State.finish_stopAfterRead (s : State) : (s.finish).stopAfterRead = s.stopAfterRead := rfl
@[simp] theorem State.finish_answers (s : State) : (s.finish).answers = s.answers := rfl
@[simp] theorem State.finish_moves (s : State) : (s.finish).moves = s.moves := rfl
@[simp] theorem State.finish_slots (s : State) : (s.finish).slots = s.slots := rfl
@[simp] theorem State.finish_draws (s : State) : (s.finish).draws = s.draws := rfl

@[simp] theorem State.finish_progress (s : State) : s.finish.progress = .idle := rfl
@[simp] theorem State.finish_resumed (s : State) : s.finish.resumed = none := rfl
@[simp] theorem State.finish_augPending (s : State) : s.finish.augPending = false := rfl
@[simp] theorem State.finish_augT (s : State) : s.finish.augT = AugT.zero := rfl
@[simp] theorem State.finish_slsStopped (s : State) : s.finish.slsStopped = false := rfl
@[simp] theorem State.finish_running (s : State) : s.finish.running = (s.running && !s.stopRequest) := rfl
@[simp] theorem State.finish_stopRequest (s : State) : s.finish.stopRequest = false := rfl

/-! `advance` leaves every field it does not write. -/

@[simp] theorem State.advance_config (s : State) : (s.advance).config = s.config := rfl
@[simp] theorem State.advance_a (s : State) : (s.advance).a = s.a := rfl
@[simp] theorem State.advance_q (s : State) : (s.advance).q = s.q := rfl
@[simp] theorem State.advance_index (s : State) : (s.advance).index = s.index := rfl
@[simp] theorem State.advance_u (s : State) : (s.advance).u = s.u := rfl
@[simp] theorem State.advance_irff (s : State) : (s.advance).irff = s.irff := rfl
@[simp] theorem State.advance_mask (s : State) : (s.advance).mask = s.mask := rfl
@[simp] theorem State.advance_intActive (s : State) : (s.advance).intActive = s.intActive := rfl
@[simp] theorem State.advance_mode1 (s : State) : (s.advance).mode1 = s.mode1 := rfl
@[simp] theorem State.advance_mode2 (s : State) : (s.advance).mode2 = s.mode2 := rfl
@[simp] theorem State.advance_mode3 (s : State) : (s.advance).mode3 = s.mode3 := rfl
@[simp] theorem State.advance_exit1 (s : State) : (s.advance).exit1 = s.exit1 := rfl
@[simp] theorem State.advance_exit2 (s : State) : (s.advance).exit2 = s.exit2 := rfl
@[simp] theorem State.advance_exit3 (s : State) : (s.advance).exit3 = s.exit3 := rfl
@[simp] theorem State.advance_lockout (s : State) : (s.advance).lockout = s.lockout := rfl
@[simp] theorem State.advance_bl (s : State) : (s.advance).bl = s.bl := rfl
@[simp] theorem State.advance_bu (s : State) : (s.advance).bu = s.bu := rfl
@[simp] theorem State.advance_memory (s : State) : (s.advance).memory = s.memory := rfl
@[simp] theorem State.advance_badParity (s : State) : (s.advance).badParity = s.badParity := rfl
@[simp] theorem State.advance_channels (s : State) : (s.advance).channels = s.channels := rfl
@[simp] theorem State.advance_typewriter (s : State) : (s.advance).typewriter = s.typewriter := rfl
@[simp] theorem State.advance_console (s : State) : (s.advance).console = s.console := rfl
@[simp] theorem State.advance_systemActive (s : State) : (s.advance).systemActive = s.systemActive := rfl
@[simp] theorem State.advance_ccwdWait (s : State) : (s.advance).ccwdWait = s.ccwdWait := rfl
@[simp] theorem State.advance_autoLoad (s : State) : (s.advance).autoLoad = s.autoLoad := rfl
@[simp] theorem State.advance_restartRequest (s : State) : (s.advance).restartRequest = s.restartRequest := rfl
@[simp] theorem State.advance_stopAfterRead (s : State) : (s.advance).stopAfterRead = s.stopAfterRead := rfl
@[simp] theorem State.advance_answers (s : State) : (s.advance).answers = s.answers := rfl
@[simp] theorem State.advance_moves (s : State) : (s.advance).moves = s.moves := rfl
@[simp] theorem State.advance_slots (s : State) : (s.advance).slots = s.slots := rfl
@[simp] theorem State.advance_draws (s : State) : (s.advance).draws = s.draws := rfl

@[simp] theorem State.advance_progress (s : State) : s.advance.progress = .idle := rfl
@[simp] theorem State.advance_resumed (s : State) : s.advance.resumed = none := rfl
@[simp] theorem State.advance_augPending (s : State) : s.advance.augPending = false := rfl
@[simp] theorem State.advance_augT (s : State) : s.advance.augT = AugT.zero := rfl
@[simp] theorem State.advance_p (s : State) : s.advance.p = s.nextP := rfl
@[simp] theorem State.advance_half (s : State) : s.advance.half = .upper := rfl
@[simp] theorem State.advance_needRni (s : State) : s.advance.needRni = true := rfl

/-! `endWait` leaves every field it does not write. -/

@[simp] theorem State.endWait_config (s : State) : s.endWait.config = s.config := rfl
@[simp] theorem State.endWait_a (s : State) : s.endWait.a = s.a := rfl
@[simp] theorem State.endWait_q (s : State) : s.endWait.q = s.q := rfl
@[simp] theorem State.endWait_index (s : State) : s.endWait.index = s.index := rfl
@[simp] theorem State.endWait_u (s : State) : s.endWait.u = s.u := rfl
@[simp] theorem State.endWait_irff (s : State) : s.endWait.irff = s.irff := rfl
@[simp] theorem State.endWait_mask (s : State) : s.endWait.mask = s.mask := rfl
@[simp] theorem State.endWait_intActive (s : State) : s.endWait.intActive = s.intActive := rfl
@[simp] theorem State.endWait_mode1 (s : State) : s.endWait.mode1 = s.mode1 := rfl
@[simp] theorem State.endWait_mode2 (s : State) : s.endWait.mode2 = s.mode2 := rfl
@[simp] theorem State.endWait_mode3 (s : State) : s.endWait.mode3 = s.mode3 := rfl
@[simp] theorem State.endWait_exit1 (s : State) : s.endWait.exit1 = s.exit1 := rfl
@[simp] theorem State.endWait_exit2 (s : State) : s.endWait.exit2 = s.exit2 := rfl
@[simp] theorem State.endWait_exit3 (s : State) : s.endWait.exit3 = s.exit3 := rfl
@[simp] theorem State.endWait_lockout (s : State) : s.endWait.lockout = s.lockout := rfl
@[simp] theorem State.endWait_bl (s : State) : s.endWait.bl = s.bl := rfl
@[simp] theorem State.endWait_bu (s : State) : s.endWait.bu = s.bu := rfl
@[simp] theorem State.endWait_memory (s : State) : s.endWait.memory = s.memory := rfl
@[simp] theorem State.endWait_badParity (s : State) : s.endWait.badParity = s.badParity := rfl
@[simp] theorem State.endWait_channels (s : State) : s.endWait.channels = s.channels := rfl
@[simp] theorem State.endWait_typewriter (s : State) : s.endWait.typewriter = s.typewriter := rfl
@[simp] theorem State.endWait_console (s : State) : s.endWait.console = s.console := rfl
@[simp] theorem State.endWait_systemActive (s : State) : s.endWait.systemActive = s.systemActive := rfl
@[simp] theorem State.endWait_autoLoad (s : State) : s.endWait.autoLoad = s.autoLoad := rfl
@[simp] theorem State.endWait_restartRequest (s : State) : s.endWait.restartRequest = s.restartRequest := rfl
@[simp] theorem State.endWait_answers (s : State) : s.endWait.answers = s.answers := rfl
@[simp] theorem State.endWait_moves (s : State) : s.endWait.moves = s.moves := rfl
@[simp] theorem State.endWait_slots (s : State) : s.endWait.slots = s.slots := rfl
@[simp] theorem State.endWait_draws (s : State) : s.endWait.draws = s.draws := rfl
@[simp] theorem State.endWait_ccwdWait (s : State) : s.endWait.ccwdWait = none := rfl
@[simp] theorem State.endWait_p (s : State) : s.endWait.p = s.nextP := rfl
@[simp] theorem State.endWait_half (s : State) : s.endWait.half = .upper := rfl
@[simp] theorem State.endWait_needRni (s : State) : s.endWait.needRni = true := rfl
@[simp] theorem State.endWait_augPending (s : State) : s.endWait.augPending = false := rfl
@[simp] theorem State.endWait_augT (s : State) : s.endWait.augT = AugT.zero := rfl
@[simp] theorem State.endWait_progress (s : State) : s.endWait.progress = .idle := rfl
@[simp] theorem State.endWait_resumed (s : State) : s.endWait.resumed = none := rfl
@[simp] theorem State.endWait_slsStopped (s : State) : s.endWait.slsStopped = false := rfl
@[simp] theorem State.endWait_running (s : State) : s.endWait.running = (s.running && !s.stopRequest) := rfl
@[simp] theorem State.endWait_stopRequest (s : State) : s.endWait.stopRequest = false := rfl

/-! `next24` leaves every field it does not write. -/

@[simp] theorem State.next24_config (s : State) : (s.next24).config = s.config := by unfold State.next24; split <;> rfl
@[simp] theorem State.next24_a (s : State) : (s.next24).a = s.a := by unfold State.next24; split <;> rfl
@[simp] theorem State.next24_q (s : State) : (s.next24).q = s.q := by unfold State.next24; split <;> rfl
@[simp] theorem State.next24_index (s : State) : (s.next24).index = s.index := by unfold State.next24; split <;> rfl
@[simp] theorem State.next24_u (s : State) : (s.next24).u = s.u := by unfold State.next24; split <;> rfl
@[simp] theorem State.next24_irff (s : State) : (s.next24).irff = s.irff := by unfold State.next24; split <;> rfl
@[simp] theorem State.next24_mask (s : State) : (s.next24).mask = s.mask := by unfold State.next24; split <;> rfl
@[simp] theorem State.next24_intActive (s : State) : (s.next24).intActive = s.intActive := by unfold State.next24; split <;> rfl
@[simp] theorem State.next24_mode1 (s : State) : (s.next24).mode1 = s.mode1 := by unfold State.next24; split <;> rfl
@[simp] theorem State.next24_mode2 (s : State) : (s.next24).mode2 = s.mode2 := by unfold State.next24; split <;> rfl
@[simp] theorem State.next24_mode3 (s : State) : (s.next24).mode3 = s.mode3 := by unfold State.next24; split <;> rfl
@[simp] theorem State.next24_exit1 (s : State) : (s.next24).exit1 = s.exit1 := by unfold State.next24; split <;> rfl
@[simp] theorem State.next24_exit2 (s : State) : (s.next24).exit2 = s.exit2 := by unfold State.next24; split <;> rfl
@[simp] theorem State.next24_exit3 (s : State) : (s.next24).exit3 = s.exit3 := by unfold State.next24; split <;> rfl
@[simp] theorem State.next24_lockout (s : State) : (s.next24).lockout = s.lockout := by unfold State.next24; split <;> rfl
@[simp] theorem State.next24_bl (s : State) : (s.next24).bl = s.bl := by unfold State.next24; split <;> rfl
@[simp] theorem State.next24_bu (s : State) : (s.next24).bu = s.bu := by unfold State.next24; split <;> rfl
@[simp] theorem State.next24_memory (s : State) : (s.next24).memory = s.memory := by unfold State.next24; split <;> rfl
@[simp] theorem State.next24_badParity (s : State) : (s.next24).badParity = s.badParity := by unfold State.next24; split <;> rfl
@[simp] theorem State.next24_channels (s : State) : (s.next24).channels = s.channels := by unfold State.next24; split <;> rfl
@[simp] theorem State.next24_typewriter (s : State) : (s.next24).typewriter = s.typewriter := by unfold State.next24; split <;> rfl
@[simp] theorem State.next24_console (s : State) : (s.next24).console = s.console := by unfold State.next24; split <;> rfl
@[simp] theorem State.next24_systemActive (s : State) : (s.next24).systemActive = s.systemActive := by unfold State.next24; split <;> rfl
@[simp] theorem State.next24_ccwdWait (s : State) : (s.next24).ccwdWait = s.ccwdWait := by unfold State.next24; split <;> rfl
@[simp] theorem State.next24_autoLoad (s : State) : (s.next24).autoLoad = s.autoLoad := by unfold State.next24; split <;> rfl
@[simp] theorem State.next24_restartRequest (s : State) : (s.next24).restartRequest = s.restartRequest := by unfold State.next24; split <;> rfl
@[simp] theorem State.next24_stopAfterRead (s : State) : (s.next24).stopAfterRead = s.stopAfterRead := by unfold State.next24; split <;> rfl
@[simp] theorem State.next24_answers (s : State) : (s.next24).answers = s.answers := by unfold State.next24; split <;> rfl
@[simp] theorem State.next24_moves (s : State) : (s.next24).moves = s.moves := by unfold State.next24; split <;> rfl
@[simp] theorem State.next24_slots (s : State) : (s.next24).slots = s.slots := by unfold State.next24; split <;> rfl
@[simp] theorem State.next24_draws (s : State) : (s.next24).draws = s.draws := by unfold State.next24; split <;> rfl

@[simp] theorem State.next24_progress (s : State) : s.next24.progress = .idle := by
  unfold State.next24; split <;> rfl
@[simp] theorem State.next24_resumed (s : State) : s.next24.resumed = none := by
  unfold State.next24; split <;> rfl
@[simp] theorem State.next24_augPending (s : State) : s.next24.augPending = false := by
  unfold State.next24; split <;> rfl
@[simp] theorem State.next24_augT (s : State) : s.next24.augT = AugT.zero := by
  unfold State.next24; split <;> rfl

/-! `land` leaves every field it does not write. -/

@[simp] theorem State.land_config (s : State) (t : Addr) (h : Half) : (s.land t h).config = s.config := rfl
@[simp] theorem State.land_a (s : State) (t : Addr) (h : Half) : (s.land t h).a = s.a := rfl
@[simp] theorem State.land_q (s : State) (t : Addr) (h : Half) : (s.land t h).q = s.q := rfl
@[simp] theorem State.land_index (s : State) (t : Addr) (h : Half) : (s.land t h).index = s.index := rfl
@[simp] theorem State.land_u (s : State) (t : Addr) (h : Half) : (s.land t h).u = s.u := rfl
@[simp] theorem State.land_irff (s : State) (t : Addr) (h : Half) : (s.land t h).irff = s.irff := rfl
@[simp] theorem State.land_mask (s : State) (t : Addr) (h : Half) : (s.land t h).mask = s.mask := rfl
@[simp] theorem State.land_intActive (s : State) (t : Addr) (h : Half) : (s.land t h).intActive = s.intActive := rfl
@[simp] theorem State.land_mode1 (s : State) (t : Addr) (h : Half) : (s.land t h).mode1 = s.mode1 := rfl
@[simp] theorem State.land_mode2 (s : State) (t : Addr) (h : Half) : (s.land t h).mode2 = s.mode2 := rfl
@[simp] theorem State.land_mode3 (s : State) (t : Addr) (h : Half) : (s.land t h).mode3 = s.mode3 := rfl
@[simp] theorem State.land_exit1 (s : State) (t : Addr) (h : Half) : (s.land t h).exit1 = s.exit1 := rfl
@[simp] theorem State.land_exit2 (s : State) (t : Addr) (h : Half) : (s.land t h).exit2 = s.exit2 := rfl
@[simp] theorem State.land_exit3 (s : State) (t : Addr) (h : Half) : (s.land t h).exit3 = s.exit3 := rfl
@[simp] theorem State.land_lockout (s : State) (t : Addr) (h : Half) : (s.land t h).lockout = s.lockout := rfl
@[simp] theorem State.land_bl (s : State) (t : Addr) (h : Half) : (s.land t h).bl = s.bl := rfl
@[simp] theorem State.land_bu (s : State) (t : Addr) (h : Half) : (s.land t h).bu = s.bu := rfl
@[simp] theorem State.land_memory (s : State) (t : Addr) (h : Half) : (s.land t h).memory = s.memory := rfl
@[simp] theorem State.land_badParity (s : State) (t : Addr) (h : Half) : (s.land t h).badParity = s.badParity := rfl
@[simp] theorem State.land_channels (s : State) (t : Addr) (h : Half) : (s.land t h).channels = s.channels := rfl
@[simp] theorem State.land_typewriter (s : State) (t : Addr) (h : Half) : (s.land t h).typewriter = s.typewriter := rfl
@[simp] theorem State.land_console (s : State) (t : Addr) (h : Half) : (s.land t h).console = s.console := rfl
@[simp] theorem State.land_systemActive (s : State) (t : Addr) (h : Half) : (s.land t h).systemActive = s.systemActive := rfl
@[simp] theorem State.land_ccwdWait (s : State) (t : Addr) (h : Half) : (s.land t h).ccwdWait = s.ccwdWait := rfl
@[simp] theorem State.land_autoLoad (s : State) (t : Addr) (h : Half) : (s.land t h).autoLoad = s.autoLoad := rfl
@[simp] theorem State.land_restartRequest (s : State) (t : Addr) (h : Half) : (s.land t h).restartRequest = s.restartRequest := rfl
@[simp] theorem State.land_stopAfterRead (s : State) (t : Addr) (h : Half) : (s.land t h).stopAfterRead = s.stopAfterRead := rfl
@[simp] theorem State.land_answers (s : State) (t : Addr) (h : Half) : (s.land t h).answers = s.answers := rfl
@[simp] theorem State.land_moves (s : State) (t : Addr) (h : Half) : (s.land t h).moves = s.moves := rfl
@[simp] theorem State.land_slots (s : State) (t : Addr) (h : Half) : (s.land t h).slots = s.slots := rfl
@[simp] theorem State.land_draws (s : State) (t : Addr) (h : Half) : (s.land t h).draws = s.draws := rfl

@[simp] theorem State.land_progress (s : State) (t : Addr) (h : Half) : (s.land t h).progress = .idle := rfl
@[simp] theorem State.land_resumed (s : State) (t : Addr) (h : Half) : (s.land t h).resumed = none := rfl
@[simp] theorem State.land_augPending (s : State) (t : Addr) (h : Half) : (s.land t h).augPending = false := rfl
@[simp] theorem State.land_augT (s : State) (t : Addr) (h : Half) : (s.land t h).augT = AugT.zero := rfl
@[simp] theorem State.land_p (s : State) (t : Addr) (h : Half) : (s.land t h).p = t := rfl
@[simp] theorem State.land_half (s : State) (t : Addr) (h : Half) : (s.land t h).half = h := rfl
@[simp] theorem State.land_needRni (s : State) (t : Addr) (h : Half) : (s.land t h).needRni = true := rfl

/-! `setIr` leaves every field it does not write. -/

@[simp] theorem State.setIr_config (s : State) (i : Nat) : (s.setIr i).config = s.config := rfl
@[simp] theorem State.setIr_a (s : State) (i : Nat) : (s.setIr i).a = s.a := rfl
@[simp] theorem State.setIr_q (s : State) (i : Nat) : (s.setIr i).q = s.q := rfl
@[simp] theorem State.setIr_index (s : State) (i : Nat) : (s.setIr i).index = s.index := rfl
@[simp] theorem State.setIr_p (s : State) (i : Nat) : (s.setIr i).p = s.p := rfl
@[simp] theorem State.setIr_u (s : State) (i : Nat) : (s.setIr i).u = s.u := rfl
@[simp] theorem State.setIr_half (s : State) (i : Nat) : (s.setIr i).half = s.half := rfl
@[simp] theorem State.setIr_needRni (s : State) (i : Nat) : (s.setIr i).needRni = s.needRni := rfl
@[simp] theorem State.setIr_running (s : State) (i : Nat) : (s.setIr i).running = s.running := rfl
@[simp] theorem State.setIr_slsStopped (s : State) (i : Nat) : (s.setIr i).slsStopped = s.slsStopped := rfl
@[simp] theorem State.setIr_augPending (s : State) (i : Nat) : (s.setIr i).augPending = s.augPending := rfl
@[simp] theorem State.setIr_augT (s : State) (i : Nat) : (s.setIr i).augT = s.augT := rfl
@[simp] theorem State.setIr_mask (s : State) (i : Nat) : (s.setIr i).mask = s.mask := rfl
@[simp] theorem State.setIr_intActive (s : State) (i : Nat) : (s.setIr i).intActive = s.intActive := rfl
@[simp] theorem State.setIr_mode1 (s : State) (i : Nat) : (s.setIr i).mode1 = s.mode1 := rfl
@[simp] theorem State.setIr_mode2 (s : State) (i : Nat) : (s.setIr i).mode2 = s.mode2 := rfl
@[simp] theorem State.setIr_mode3 (s : State) (i : Nat) : (s.setIr i).mode3 = s.mode3 := rfl
@[simp] theorem State.setIr_exit1 (s : State) (i : Nat) : (s.setIr i).exit1 = s.exit1 := rfl
@[simp] theorem State.setIr_exit2 (s : State) (i : Nat) : (s.setIr i).exit2 = s.exit2 := rfl
@[simp] theorem State.setIr_exit3 (s : State) (i : Nat) : (s.setIr i).exit3 = s.exit3 := rfl
@[simp] theorem State.setIr_lockout (s : State) (i : Nat) : (s.setIr i).lockout = s.lockout := rfl
@[simp] theorem State.setIr_bl (s : State) (i : Nat) : (s.setIr i).bl = s.bl := rfl
@[simp] theorem State.setIr_bu (s : State) (i : Nat) : (s.setIr i).bu = s.bu := rfl
@[simp] theorem State.setIr_memory (s : State) (i : Nat) : (s.setIr i).memory = s.memory := rfl
@[simp] theorem State.setIr_badParity (s : State) (i : Nat) : (s.setIr i).badParity = s.badParity := rfl
@[simp] theorem State.setIr_channels (s : State) (i : Nat) : (s.setIr i).channels = s.channels := rfl
@[simp] theorem State.setIr_typewriter (s : State) (i : Nat) : (s.setIr i).typewriter = s.typewriter := rfl
@[simp] theorem State.setIr_console (s : State) (i : Nat) : (s.setIr i).console = s.console := rfl
@[simp] theorem State.setIr_systemActive (s : State) (i : Nat) : (s.setIr i).systemActive = s.systemActive := rfl
@[simp] theorem State.setIr_ccwdWait (s : State) (i : Nat) : (s.setIr i).ccwdWait = s.ccwdWait := rfl
@[simp] theorem State.setIr_autoLoad (s : State) (i : Nat) : (s.setIr i).autoLoad = s.autoLoad := rfl
@[simp] theorem State.setIr_passedExit (s : State) (i : Nat) : (s.setIr i).passedExit = s.passedExit := rfl
@[simp] theorem State.setIr_stopRequest (s : State) (i : Nat) : (s.setIr i).stopRequest = s.stopRequest := rfl
@[simp] theorem State.setIr_restartRequest (s : State) (i : Nat) : (s.setIr i).restartRequest = s.restartRequest := rfl
@[simp] theorem State.setIr_stopAfterRead (s : State) (i : Nat) : (s.setIr i).stopAfterRead = s.stopAfterRead := rfl
@[simp] theorem State.setIr_progress (s : State) (i : Nat) : (s.setIr i).progress = s.progress := rfl
@[simp] theorem State.setIr_resumed (s : State) (i : Nat) : (s.setIr i).resumed = s.resumed := rfl
@[simp] theorem State.setIr_answers (s : State) (i : Nat) : (s.setIr i).answers = s.answers := rfl
@[simp] theorem State.setIr_moves (s : State) (i : Nat) : (s.setIr i).moves = s.moves := rfl
@[simp] theorem State.setIr_slots (s : State) (i : Nat) : (s.setIr i).slots = s.slots := rfl
@[simp] theorem State.setIr_draws (s : State) (i : Nat) : (s.setIr i).draws = s.draws := rfl

/-! `clearIr` leaves every field it does not write. -/

@[simp] theorem State.clearIr_config (s : State) (i : Nat) : (s.clearIr i).config = s.config := rfl
@[simp] theorem State.clearIr_a (s : State) (i : Nat) : (s.clearIr i).a = s.a := rfl
@[simp] theorem State.clearIr_q (s : State) (i : Nat) : (s.clearIr i).q = s.q := rfl
@[simp] theorem State.clearIr_index (s : State) (i : Nat) : (s.clearIr i).index = s.index := rfl
@[simp] theorem State.clearIr_p (s : State) (i : Nat) : (s.clearIr i).p = s.p := rfl
@[simp] theorem State.clearIr_u (s : State) (i : Nat) : (s.clearIr i).u = s.u := rfl
@[simp] theorem State.clearIr_half (s : State) (i : Nat) : (s.clearIr i).half = s.half := rfl
@[simp] theorem State.clearIr_needRni (s : State) (i : Nat) : (s.clearIr i).needRni = s.needRni := rfl
@[simp] theorem State.clearIr_running (s : State) (i : Nat) : (s.clearIr i).running = s.running := rfl
@[simp] theorem State.clearIr_slsStopped (s : State) (i : Nat) : (s.clearIr i).slsStopped = s.slsStopped := rfl
@[simp] theorem State.clearIr_augPending (s : State) (i : Nat) : (s.clearIr i).augPending = s.augPending := rfl
@[simp] theorem State.clearIr_augT (s : State) (i : Nat) : (s.clearIr i).augT = s.augT := rfl
@[simp] theorem State.clearIr_mask (s : State) (i : Nat) : (s.clearIr i).mask = s.mask := rfl
@[simp] theorem State.clearIr_intActive (s : State) (i : Nat) : (s.clearIr i).intActive = s.intActive := rfl
@[simp] theorem State.clearIr_mode1 (s : State) (i : Nat) : (s.clearIr i).mode1 = s.mode1 := rfl
@[simp] theorem State.clearIr_mode2 (s : State) (i : Nat) : (s.clearIr i).mode2 = s.mode2 := rfl
@[simp] theorem State.clearIr_mode3 (s : State) (i : Nat) : (s.clearIr i).mode3 = s.mode3 := rfl
@[simp] theorem State.clearIr_exit1 (s : State) (i : Nat) : (s.clearIr i).exit1 = s.exit1 := rfl
@[simp] theorem State.clearIr_exit2 (s : State) (i : Nat) : (s.clearIr i).exit2 = s.exit2 := rfl
@[simp] theorem State.clearIr_exit3 (s : State) (i : Nat) : (s.clearIr i).exit3 = s.exit3 := rfl
@[simp] theorem State.clearIr_lockout (s : State) (i : Nat) : (s.clearIr i).lockout = s.lockout := rfl
@[simp] theorem State.clearIr_bl (s : State) (i : Nat) : (s.clearIr i).bl = s.bl := rfl
@[simp] theorem State.clearIr_bu (s : State) (i : Nat) : (s.clearIr i).bu = s.bu := rfl
@[simp] theorem State.clearIr_memory (s : State) (i : Nat) : (s.clearIr i).memory = s.memory := rfl
@[simp] theorem State.clearIr_badParity (s : State) (i : Nat) : (s.clearIr i).badParity = s.badParity := rfl
@[simp] theorem State.clearIr_channels (s : State) (i : Nat) : (s.clearIr i).channels = s.channels := rfl
@[simp] theorem State.clearIr_typewriter (s : State) (i : Nat) : (s.clearIr i).typewriter = s.typewriter := rfl
@[simp] theorem State.clearIr_console (s : State) (i : Nat) : (s.clearIr i).console = s.console := rfl
@[simp] theorem State.clearIr_systemActive (s : State) (i : Nat) : (s.clearIr i).systemActive = s.systemActive := rfl
@[simp] theorem State.clearIr_ccwdWait (s : State) (i : Nat) : (s.clearIr i).ccwdWait = s.ccwdWait := rfl
@[simp] theorem State.clearIr_autoLoad (s : State) (i : Nat) : (s.clearIr i).autoLoad = s.autoLoad := rfl
@[simp] theorem State.clearIr_passedExit (s : State) (i : Nat) : (s.clearIr i).passedExit = s.passedExit := rfl
@[simp] theorem State.clearIr_stopRequest (s : State) (i : Nat) : (s.clearIr i).stopRequest = s.stopRequest := rfl
@[simp] theorem State.clearIr_restartRequest (s : State) (i : Nat) : (s.clearIr i).restartRequest = s.restartRequest := rfl
@[simp] theorem State.clearIr_stopAfterRead (s : State) (i : Nat) : (s.clearIr i).stopAfterRead = s.stopAfterRead := rfl
@[simp] theorem State.clearIr_progress (s : State) (i : Nat) : (s.clearIr i).progress = s.progress := rfl
@[simp] theorem State.clearIr_resumed (s : State) (i : Nat) : (s.clearIr i).resumed = s.resumed := rfl
@[simp] theorem State.clearIr_answers (s : State) (i : Nat) : (s.clearIr i).answers = s.answers := rfl
@[simp] theorem State.clearIr_moves (s : State) (i : Nat) : (s.clearIr i).moves = s.moves := rfl
@[simp] theorem State.clearIr_slots (s : State) (i : Nat) : (s.clearIr i).slots = s.slots := rfl
@[simp] theorem State.clearIr_draws (s : State) (i : Nat) : (s.clearIr i).draws = s.draws := rfl

/-! `setIrIf` leaves every field it does not write. -/

@[simp] theorem State.setIrIf_config (s : State) (i : Nat) (c : Bool) : (s.setIrIf i c).config = s.config := by cases c <;> rfl
@[simp] theorem State.setIrIf_a (s : State) (i : Nat) (c : Bool) : (s.setIrIf i c).a = s.a := by cases c <;> rfl
@[simp] theorem State.setIrIf_q (s : State) (i : Nat) (c : Bool) : (s.setIrIf i c).q = s.q := by cases c <;> rfl
@[simp] theorem State.setIrIf_index (s : State) (i : Nat) (c : Bool) : (s.setIrIf i c).index = s.index := by cases c <;> rfl
@[simp] theorem State.setIrIf_p (s : State) (i : Nat) (c : Bool) : (s.setIrIf i c).p = s.p := by cases c <;> rfl
@[simp] theorem State.setIrIf_u (s : State) (i : Nat) (c : Bool) : (s.setIrIf i c).u = s.u := by cases c <;> rfl
@[simp] theorem State.setIrIf_half (s : State) (i : Nat) (c : Bool) : (s.setIrIf i c).half = s.half := by cases c <;> rfl
@[simp] theorem State.setIrIf_needRni (s : State) (i : Nat) (c : Bool) : (s.setIrIf i c).needRni = s.needRni := by cases c <;> rfl
@[simp] theorem State.setIrIf_running (s : State) (i : Nat) (c : Bool) : (s.setIrIf i c).running = s.running := by cases c <;> rfl
@[simp] theorem State.setIrIf_slsStopped (s : State) (i : Nat) (c : Bool) : (s.setIrIf i c).slsStopped = s.slsStopped := by cases c <;> rfl
@[simp] theorem State.setIrIf_augPending (s : State) (i : Nat) (c : Bool) : (s.setIrIf i c).augPending = s.augPending := by cases c <;> rfl
@[simp] theorem State.setIrIf_augT (s : State) (i : Nat) (c : Bool) : (s.setIrIf i c).augT = s.augT := by cases c <;> rfl
@[simp] theorem State.setIrIf_mask (s : State) (i : Nat) (c : Bool) : (s.setIrIf i c).mask = s.mask := by cases c <;> rfl
@[simp] theorem State.setIrIf_intActive (s : State) (i : Nat) (c : Bool) : (s.setIrIf i c).intActive = s.intActive := by cases c <;> rfl
@[simp] theorem State.setIrIf_mode1 (s : State) (i : Nat) (c : Bool) : (s.setIrIf i c).mode1 = s.mode1 := by cases c <;> rfl
@[simp] theorem State.setIrIf_mode2 (s : State) (i : Nat) (c : Bool) : (s.setIrIf i c).mode2 = s.mode2 := by cases c <;> rfl
@[simp] theorem State.setIrIf_mode3 (s : State) (i : Nat) (c : Bool) : (s.setIrIf i c).mode3 = s.mode3 := by cases c <;> rfl
@[simp] theorem State.setIrIf_exit1 (s : State) (i : Nat) (c : Bool) : (s.setIrIf i c).exit1 = s.exit1 := by cases c <;> rfl
@[simp] theorem State.setIrIf_exit2 (s : State) (i : Nat) (c : Bool) : (s.setIrIf i c).exit2 = s.exit2 := by cases c <;> rfl
@[simp] theorem State.setIrIf_exit3 (s : State) (i : Nat) (c : Bool) : (s.setIrIf i c).exit3 = s.exit3 := by cases c <;> rfl
@[simp] theorem State.setIrIf_lockout (s : State) (i : Nat) (c : Bool) : (s.setIrIf i c).lockout = s.lockout := by cases c <;> rfl
@[simp] theorem State.setIrIf_bl (s : State) (i : Nat) (c : Bool) : (s.setIrIf i c).bl = s.bl := by cases c <;> rfl
@[simp] theorem State.setIrIf_bu (s : State) (i : Nat) (c : Bool) : (s.setIrIf i c).bu = s.bu := by cases c <;> rfl
@[simp] theorem State.setIrIf_memory (s : State) (i : Nat) (c : Bool) : (s.setIrIf i c).memory = s.memory := by cases c <;> rfl
@[simp] theorem State.setIrIf_badParity (s : State) (i : Nat) (c : Bool) : (s.setIrIf i c).badParity = s.badParity := by cases c <;> rfl
@[simp] theorem State.setIrIf_channels (s : State) (i : Nat) (c : Bool) : (s.setIrIf i c).channels = s.channels := by cases c <;> rfl
@[simp] theorem State.setIrIf_typewriter (s : State) (i : Nat) (c : Bool) : (s.setIrIf i c).typewriter = s.typewriter := by cases c <;> rfl
@[simp] theorem State.setIrIf_console (s : State) (i : Nat) (c : Bool) : (s.setIrIf i c).console = s.console := by cases c <;> rfl
@[simp] theorem State.setIrIf_systemActive (s : State) (i : Nat) (c : Bool) : (s.setIrIf i c).systemActive = s.systemActive := by cases c <;> rfl
@[simp] theorem State.setIrIf_ccwdWait (s : State) (i : Nat) (c : Bool) : (s.setIrIf i c).ccwdWait = s.ccwdWait := by cases c <;> rfl
@[simp] theorem State.setIrIf_autoLoad (s : State) (i : Nat) (c : Bool) : (s.setIrIf i c).autoLoad = s.autoLoad := by cases c <;> rfl
@[simp] theorem State.setIrIf_passedExit (s : State) (i : Nat) (c : Bool) : (s.setIrIf i c).passedExit = s.passedExit := by cases c <;> rfl
@[simp] theorem State.setIrIf_stopRequest (s : State) (i : Nat) (c : Bool) : (s.setIrIf i c).stopRequest = s.stopRequest := by cases c <;> rfl
@[simp] theorem State.setIrIf_restartRequest (s : State) (i : Nat) (c : Bool) : (s.setIrIf i c).restartRequest = s.restartRequest := by cases c <;> rfl
@[simp] theorem State.setIrIf_stopAfterRead (s : State) (i : Nat) (c : Bool) : (s.setIrIf i c).stopAfterRead = s.stopAfterRead := by cases c <;> rfl
@[simp] theorem State.setIrIf_progress (s : State) (i : Nat) (c : Bool) : (s.setIrIf i c).progress = s.progress := by cases c <;> rfl
@[simp] theorem State.setIrIf_resumed (s : State) (i : Nat) (c : Bool) : (s.setIrIf i c).resumed = s.resumed := by cases c <;> rfl
@[simp] theorem State.setIrIf_answers (s : State) (i : Nat) (c : Bool) : (s.setIrIf i c).answers = s.answers := by cases c <;> rfl
@[simp] theorem State.setIrIf_moves (s : State) (i : Nat) (c : Bool) : (s.setIrIf i c).moves = s.moves := by cases c <;> rfl
@[simp] theorem State.setIrIf_slots (s : State) (i : Nat) (c : Bool) : (s.setIrIf i c).slots = s.slots := by cases c <;> rfl
@[simp] theorem State.setIrIf_draws (s : State) (i : Nat) (c : Bool) : (s.setIrIf i c).draws = s.draws := by cases c <;> rfl

/-! `setMask` leaves every field it does not write. -/

@[simp] theorem State.setMask_config (s : State) (i : Nat) : (s.setMask i).config = s.config := rfl
@[simp] theorem State.setMask_a (s : State) (i : Nat) : (s.setMask i).a = s.a := rfl
@[simp] theorem State.setMask_q (s : State) (i : Nat) : (s.setMask i).q = s.q := rfl
@[simp] theorem State.setMask_index (s : State) (i : Nat) : (s.setMask i).index = s.index := rfl
@[simp] theorem State.setMask_p (s : State) (i : Nat) : (s.setMask i).p = s.p := rfl
@[simp] theorem State.setMask_u (s : State) (i : Nat) : (s.setMask i).u = s.u := rfl
@[simp] theorem State.setMask_half (s : State) (i : Nat) : (s.setMask i).half = s.half := rfl
@[simp] theorem State.setMask_needRni (s : State) (i : Nat) : (s.setMask i).needRni = s.needRni := rfl
@[simp] theorem State.setMask_running (s : State) (i : Nat) : (s.setMask i).running = s.running := rfl
@[simp] theorem State.setMask_slsStopped (s : State) (i : Nat) : (s.setMask i).slsStopped = s.slsStopped := rfl
@[simp] theorem State.setMask_augPending (s : State) (i : Nat) : (s.setMask i).augPending = s.augPending := rfl
@[simp] theorem State.setMask_augT (s : State) (i : Nat) : (s.setMask i).augT = s.augT := rfl
@[simp] theorem State.setMask_irff (s : State) (i : Nat) : (s.setMask i).irff = s.irff := rfl
@[simp] theorem State.setMask_intActive (s : State) (i : Nat) : (s.setMask i).intActive = s.intActive := rfl
@[simp] theorem State.setMask_mode1 (s : State) (i : Nat) : (s.setMask i).mode1 = s.mode1 := rfl
@[simp] theorem State.setMask_mode2 (s : State) (i : Nat) : (s.setMask i).mode2 = s.mode2 := rfl
@[simp] theorem State.setMask_mode3 (s : State) (i : Nat) : (s.setMask i).mode3 = s.mode3 := rfl
@[simp] theorem State.setMask_exit1 (s : State) (i : Nat) : (s.setMask i).exit1 = s.exit1 := rfl
@[simp] theorem State.setMask_exit2 (s : State) (i : Nat) : (s.setMask i).exit2 = s.exit2 := rfl
@[simp] theorem State.setMask_exit3 (s : State) (i : Nat) : (s.setMask i).exit3 = s.exit3 := rfl
@[simp] theorem State.setMask_lockout (s : State) (i : Nat) : (s.setMask i).lockout = s.lockout := rfl
@[simp] theorem State.setMask_bl (s : State) (i : Nat) : (s.setMask i).bl = s.bl := rfl
@[simp] theorem State.setMask_bu (s : State) (i : Nat) : (s.setMask i).bu = s.bu := rfl
@[simp] theorem State.setMask_memory (s : State) (i : Nat) : (s.setMask i).memory = s.memory := rfl
@[simp] theorem State.setMask_badParity (s : State) (i : Nat) : (s.setMask i).badParity = s.badParity := rfl
@[simp] theorem State.setMask_channels (s : State) (i : Nat) : (s.setMask i).channels = s.channels := rfl
@[simp] theorem State.setMask_typewriter (s : State) (i : Nat) : (s.setMask i).typewriter = s.typewriter := rfl
@[simp] theorem State.setMask_console (s : State) (i : Nat) : (s.setMask i).console = s.console := rfl
@[simp] theorem State.setMask_systemActive (s : State) (i : Nat) : (s.setMask i).systemActive = s.systemActive := rfl
@[simp] theorem State.setMask_ccwdWait (s : State) (i : Nat) : (s.setMask i).ccwdWait = s.ccwdWait := rfl
@[simp] theorem State.setMask_autoLoad (s : State) (i : Nat) : (s.setMask i).autoLoad = s.autoLoad := rfl
@[simp] theorem State.setMask_passedExit (s : State) (i : Nat) : (s.setMask i).passedExit = s.passedExit := rfl
@[simp] theorem State.setMask_stopRequest (s : State) (i : Nat) : (s.setMask i).stopRequest = s.stopRequest := rfl
@[simp] theorem State.setMask_restartRequest (s : State) (i : Nat) : (s.setMask i).restartRequest = s.restartRequest := rfl
@[simp] theorem State.setMask_stopAfterRead (s : State) (i : Nat) : (s.setMask i).stopAfterRead = s.stopAfterRead := rfl
@[simp] theorem State.setMask_progress (s : State) (i : Nat) : (s.setMask i).progress = s.progress := rfl
@[simp] theorem State.setMask_resumed (s : State) (i : Nat) : (s.setMask i).resumed = s.resumed := rfl
@[simp] theorem State.setMask_answers (s : State) (i : Nat) : (s.setMask i).answers = s.answers := rfl
@[simp] theorem State.setMask_moves (s : State) (i : Nat) : (s.setMask i).moves = s.moves := rfl
@[simp] theorem State.setMask_slots (s : State) (i : Nat) : (s.setMask i).slots = s.slots := rfl
@[simp] theorem State.setMask_draws (s : State) (i : Nat) : (s.setMask i).draws = s.draws := rfl

/-! `clearMask` leaves every field it does not write. -/

@[simp] theorem State.clearMask_config (s : State) (i : Nat) : (s.clearMask i).config = s.config := rfl
@[simp] theorem State.clearMask_a (s : State) (i : Nat) : (s.clearMask i).a = s.a := rfl
@[simp] theorem State.clearMask_q (s : State) (i : Nat) : (s.clearMask i).q = s.q := rfl
@[simp] theorem State.clearMask_index (s : State) (i : Nat) : (s.clearMask i).index = s.index := rfl
@[simp] theorem State.clearMask_p (s : State) (i : Nat) : (s.clearMask i).p = s.p := rfl
@[simp] theorem State.clearMask_u (s : State) (i : Nat) : (s.clearMask i).u = s.u := rfl
@[simp] theorem State.clearMask_half (s : State) (i : Nat) : (s.clearMask i).half = s.half := rfl
@[simp] theorem State.clearMask_needRni (s : State) (i : Nat) : (s.clearMask i).needRni = s.needRni := rfl
@[simp] theorem State.clearMask_running (s : State) (i : Nat) : (s.clearMask i).running = s.running := rfl
@[simp] theorem State.clearMask_slsStopped (s : State) (i : Nat) : (s.clearMask i).slsStopped = s.slsStopped := rfl
@[simp] theorem State.clearMask_augPending (s : State) (i : Nat) : (s.clearMask i).augPending = s.augPending := rfl
@[simp] theorem State.clearMask_augT (s : State) (i : Nat) : (s.clearMask i).augT = s.augT := rfl
@[simp] theorem State.clearMask_irff (s : State) (i : Nat) : (s.clearMask i).irff = s.irff := rfl
@[simp] theorem State.clearMask_intActive (s : State) (i : Nat) : (s.clearMask i).intActive = s.intActive := rfl
@[simp] theorem State.clearMask_mode1 (s : State) (i : Nat) : (s.clearMask i).mode1 = s.mode1 := rfl
@[simp] theorem State.clearMask_mode2 (s : State) (i : Nat) : (s.clearMask i).mode2 = s.mode2 := rfl
@[simp] theorem State.clearMask_mode3 (s : State) (i : Nat) : (s.clearMask i).mode3 = s.mode3 := rfl
@[simp] theorem State.clearMask_exit1 (s : State) (i : Nat) : (s.clearMask i).exit1 = s.exit1 := rfl
@[simp] theorem State.clearMask_exit2 (s : State) (i : Nat) : (s.clearMask i).exit2 = s.exit2 := rfl
@[simp] theorem State.clearMask_exit3 (s : State) (i : Nat) : (s.clearMask i).exit3 = s.exit3 := rfl
@[simp] theorem State.clearMask_lockout (s : State) (i : Nat) : (s.clearMask i).lockout = s.lockout := rfl
@[simp] theorem State.clearMask_bl (s : State) (i : Nat) : (s.clearMask i).bl = s.bl := rfl
@[simp] theorem State.clearMask_bu (s : State) (i : Nat) : (s.clearMask i).bu = s.bu := rfl
@[simp] theorem State.clearMask_memory (s : State) (i : Nat) : (s.clearMask i).memory = s.memory := rfl
@[simp] theorem State.clearMask_badParity (s : State) (i : Nat) : (s.clearMask i).badParity = s.badParity := rfl
@[simp] theorem State.clearMask_channels (s : State) (i : Nat) : (s.clearMask i).channels = s.channels := rfl
@[simp] theorem State.clearMask_typewriter (s : State) (i : Nat) : (s.clearMask i).typewriter = s.typewriter := rfl
@[simp] theorem State.clearMask_console (s : State) (i : Nat) : (s.clearMask i).console = s.console := rfl
@[simp] theorem State.clearMask_systemActive (s : State) (i : Nat) : (s.clearMask i).systemActive = s.systemActive := rfl
@[simp] theorem State.clearMask_ccwdWait (s : State) (i : Nat) : (s.clearMask i).ccwdWait = s.ccwdWait := rfl
@[simp] theorem State.clearMask_autoLoad (s : State) (i : Nat) : (s.clearMask i).autoLoad = s.autoLoad := rfl
@[simp] theorem State.clearMask_passedExit (s : State) (i : Nat) : (s.clearMask i).passedExit = s.passedExit := rfl
@[simp] theorem State.clearMask_stopRequest (s : State) (i : Nat) : (s.clearMask i).stopRequest = s.stopRequest := rfl
@[simp] theorem State.clearMask_restartRequest (s : State) (i : Nat) : (s.clearMask i).restartRequest = s.restartRequest := rfl
@[simp] theorem State.clearMask_stopAfterRead (s : State) (i : Nat) : (s.clearMask i).stopAfterRead = s.stopAfterRead := rfl
@[simp] theorem State.clearMask_progress (s : State) (i : Nat) : (s.clearMask i).progress = s.progress := rfl
@[simp] theorem State.clearMask_resumed (s : State) (i : Nat) : (s.clearMask i).resumed = s.resumed := rfl
@[simp] theorem State.clearMask_answers (s : State) (i : Nat) : (s.clearMask i).answers = s.answers := rfl
@[simp] theorem State.clearMask_moves (s : State) (i : Nat) : (s.clearMask i).moves = s.moves := rfl
@[simp] theorem State.clearMask_slots (s : State) (i : Nat) : (s.clearMask i).slots = s.slots := rfl
@[simp] theorem State.clearMask_draws (s : State) (i : Nat) : (s.clearMask i).draws = s.draws := rfl

/-! `setB` leaves every field it does not write. -/

@[simp] theorem State.setB_config (s : State) (b : Desig) (v : Addr) : (s.setB b v).config = s.config := rfl
@[simp] theorem State.setB_a (s : State) (b : Desig) (v : Addr) : (s.setB b v).a = s.a := rfl
@[simp] theorem State.setB_q (s : State) (b : Desig) (v : Addr) : (s.setB b v).q = s.q := rfl
@[simp] theorem State.setB_p (s : State) (b : Desig) (v : Addr) : (s.setB b v).p = s.p := rfl
@[simp] theorem State.setB_u (s : State) (b : Desig) (v : Addr) : (s.setB b v).u = s.u := rfl
@[simp] theorem State.setB_half (s : State) (b : Desig) (v : Addr) : (s.setB b v).half = s.half := rfl
@[simp] theorem State.setB_needRni (s : State) (b : Desig) (v : Addr) : (s.setB b v).needRni = s.needRni := rfl
@[simp] theorem State.setB_running (s : State) (b : Desig) (v : Addr) : (s.setB b v).running = s.running := rfl
@[simp] theorem State.setB_slsStopped (s : State) (b : Desig) (v : Addr) : (s.setB b v).slsStopped = s.slsStopped := rfl
@[simp] theorem State.setB_augPending (s : State) (b : Desig) (v : Addr) : (s.setB b v).augPending = s.augPending := rfl
@[simp] theorem State.setB_augT (s : State) (b : Desig) (v : Addr) : (s.setB b v).augT = s.augT := rfl
@[simp] theorem State.setB_irff (s : State) (b : Desig) (v : Addr) : (s.setB b v).irff = s.irff := rfl
@[simp] theorem State.setB_mask (s : State) (b : Desig) (v : Addr) : (s.setB b v).mask = s.mask := rfl
@[simp] theorem State.setB_intActive (s : State) (b : Desig) (v : Addr) : (s.setB b v).intActive = s.intActive := rfl
@[simp] theorem State.setB_mode1 (s : State) (b : Desig) (v : Addr) : (s.setB b v).mode1 = s.mode1 := rfl
@[simp] theorem State.setB_mode2 (s : State) (b : Desig) (v : Addr) : (s.setB b v).mode2 = s.mode2 := rfl
@[simp] theorem State.setB_mode3 (s : State) (b : Desig) (v : Addr) : (s.setB b v).mode3 = s.mode3 := rfl
@[simp] theorem State.setB_exit1 (s : State) (b : Desig) (v : Addr) : (s.setB b v).exit1 = s.exit1 := rfl
@[simp] theorem State.setB_exit2 (s : State) (b : Desig) (v : Addr) : (s.setB b v).exit2 = s.exit2 := rfl
@[simp] theorem State.setB_exit3 (s : State) (b : Desig) (v : Addr) : (s.setB b v).exit3 = s.exit3 := rfl
@[simp] theorem State.setB_lockout (s : State) (b : Desig) (v : Addr) : (s.setB b v).lockout = s.lockout := rfl
@[simp] theorem State.setB_bl (s : State) (b : Desig) (v : Addr) : (s.setB b v).bl = s.bl := rfl
@[simp] theorem State.setB_bu (s : State) (b : Desig) (v : Addr) : (s.setB b v).bu = s.bu := rfl
@[simp] theorem State.setB_memory (s : State) (b : Desig) (v : Addr) : (s.setB b v).memory = s.memory := rfl
@[simp] theorem State.setB_badParity (s : State) (b : Desig) (v : Addr) : (s.setB b v).badParity = s.badParity := rfl
@[simp] theorem State.setB_channels (s : State) (b : Desig) (v : Addr) : (s.setB b v).channels = s.channels := rfl
@[simp] theorem State.setB_typewriter (s : State) (b : Desig) (v : Addr) : (s.setB b v).typewriter = s.typewriter := rfl
@[simp] theorem State.setB_console (s : State) (b : Desig) (v : Addr) : (s.setB b v).console = s.console := rfl
@[simp] theorem State.setB_systemActive (s : State) (b : Desig) (v : Addr) : (s.setB b v).systemActive = s.systemActive := rfl
@[simp] theorem State.setB_ccwdWait (s : State) (b : Desig) (v : Addr) : (s.setB b v).ccwdWait = s.ccwdWait := rfl
@[simp] theorem State.setB_autoLoad (s : State) (b : Desig) (v : Addr) : (s.setB b v).autoLoad = s.autoLoad := rfl
@[simp] theorem State.setB_passedExit (s : State) (b : Desig) (v : Addr) : (s.setB b v).passedExit = s.passedExit := rfl
@[simp] theorem State.setB_stopRequest (s : State) (b : Desig) (v : Addr) : (s.setB b v).stopRequest = s.stopRequest := rfl
@[simp] theorem State.setB_restartRequest (s : State) (b : Desig) (v : Addr) : (s.setB b v).restartRequest = s.restartRequest := rfl
@[simp] theorem State.setB_stopAfterRead (s : State) (b : Desig) (v : Addr) : (s.setB b v).stopAfterRead = s.stopAfterRead := rfl
@[simp] theorem State.setB_progress (s : State) (b : Desig) (v : Addr) : (s.setB b v).progress = s.progress := rfl
@[simp] theorem State.setB_resumed (s : State) (b : Desig) (v : Addr) : (s.setB b v).resumed = s.resumed := rfl
@[simp] theorem State.setB_answers (s : State) (b : Desig) (v : Addr) : (s.setB b v).answers = s.answers := rfl
@[simp] theorem State.setB_moves (s : State) (b : Desig) (v : Addr) : (s.setB b v).moves = s.moves := rfl
@[simp] theorem State.setB_slots (s : State) (b : Desig) (v : Addr) : (s.setB b v).slots = s.slots := rfl
@[simp] theorem State.setB_draws (s : State) (b : Desig) (v : Addr) : (s.setB b v).draws = s.draws := rfl

/-! `setChannel` leaves every field it does not write. -/

/-- A channel reads as it was written. -/
@[simp] theorem State.channel_setChannel (s : State) (x : BitVec 2) (c : Channel) : (s.setChannel x c).channel x = c := by
  have h : x = 0 ∨ x = 1 ∨ x = 2 ∨ x = 3 := by revert x; decide
  rcases h with rfl | rfl | rfl | rfl <;> rfl
/-- The last write of a channel stands. -/
@[simp] theorem State.setChannel_setChannel (s : State) (x : BitVec 2) (c d : Channel) :
    (s.setChannel x c).setChannel x d = s.setChannel x d := by
  have h : x = 0 ∨ x = 1 ∨ x = 2 ∨ x = 3 := by revert x; decide
  rcases h with rfl | rfl | rfl | rfl <;> rfl
@[simp] theorem State.setChannel_config (s : State) (x : BitVec 2) (c : Channel) : (s.setChannel x c).config = s.config := rfl
@[simp] theorem State.setChannel_a (s : State) (x : BitVec 2) (c : Channel) : (s.setChannel x c).a = s.a := rfl
@[simp] theorem State.setChannel_q (s : State) (x : BitVec 2) (c : Channel) : (s.setChannel x c).q = s.q := rfl
@[simp] theorem State.setChannel_index (s : State) (x : BitVec 2) (c : Channel) : (s.setChannel x c).index = s.index := rfl
@[simp] theorem State.setChannel_p (s : State) (x : BitVec 2) (c : Channel) : (s.setChannel x c).p = s.p := rfl
@[simp] theorem State.setChannel_u (s : State) (x : BitVec 2) (c : Channel) : (s.setChannel x c).u = s.u := rfl
@[simp] theorem State.setChannel_half (s : State) (x : BitVec 2) (c : Channel) : (s.setChannel x c).half = s.half := rfl
@[simp] theorem State.setChannel_needRni (s : State) (x : BitVec 2) (c : Channel) : (s.setChannel x c).needRni = s.needRni := rfl
@[simp] theorem State.setChannel_running (s : State) (x : BitVec 2) (c : Channel) : (s.setChannel x c).running = s.running := rfl
@[simp] theorem State.setChannel_slsStopped (s : State) (x : BitVec 2) (c : Channel) : (s.setChannel x c).slsStopped = s.slsStopped := rfl
@[simp] theorem State.setChannel_augPending (s : State) (x : BitVec 2) (c : Channel) : (s.setChannel x c).augPending = s.augPending := rfl
@[simp] theorem State.setChannel_augT (s : State) (x : BitVec 2) (c : Channel) : (s.setChannel x c).augT = s.augT := rfl
@[simp] theorem State.setChannel_irff (s : State) (x : BitVec 2) (c : Channel) : (s.setChannel x c).irff = s.irff := rfl
@[simp] theorem State.setChannel_mask (s : State) (x : BitVec 2) (c : Channel) : (s.setChannel x c).mask = s.mask := rfl
@[simp] theorem State.setChannel_intActive (s : State) (x : BitVec 2) (c : Channel) : (s.setChannel x c).intActive = s.intActive := rfl
@[simp] theorem State.setChannel_mode1 (s : State) (x : BitVec 2) (c : Channel) : (s.setChannel x c).mode1 = s.mode1 := rfl
@[simp] theorem State.setChannel_mode2 (s : State) (x : BitVec 2) (c : Channel) : (s.setChannel x c).mode2 = s.mode2 := rfl
@[simp] theorem State.setChannel_mode3 (s : State) (x : BitVec 2) (c : Channel) : (s.setChannel x c).mode3 = s.mode3 := rfl
@[simp] theorem State.setChannel_exit1 (s : State) (x : BitVec 2) (c : Channel) : (s.setChannel x c).exit1 = s.exit1 := rfl
@[simp] theorem State.setChannel_exit2 (s : State) (x : BitVec 2) (c : Channel) : (s.setChannel x c).exit2 = s.exit2 := rfl
@[simp] theorem State.setChannel_exit3 (s : State) (x : BitVec 2) (c : Channel) : (s.setChannel x c).exit3 = s.exit3 := rfl
@[simp] theorem State.setChannel_lockout (s : State) (x : BitVec 2) (c : Channel) : (s.setChannel x c).lockout = s.lockout := rfl
@[simp] theorem State.setChannel_bl (s : State) (x : BitVec 2) (c : Channel) : (s.setChannel x c).bl = s.bl := rfl
@[simp] theorem State.setChannel_bu (s : State) (x : BitVec 2) (c : Channel) : (s.setChannel x c).bu = s.bu := rfl
@[simp] theorem State.setChannel_memory (s : State) (x : BitVec 2) (c : Channel) : (s.setChannel x c).memory = s.memory := rfl
@[simp] theorem State.setChannel_badParity (s : State) (x : BitVec 2) (c : Channel) : (s.setChannel x c).badParity = s.badParity := rfl
@[simp] theorem State.setChannel_typewriter (s : State) (x : BitVec 2) (c : Channel) : (s.setChannel x c).typewriter = s.typewriter := rfl
@[simp] theorem State.setChannel_console (s : State) (x : BitVec 2) (c : Channel) : (s.setChannel x c).console = s.console := rfl
@[simp] theorem State.setChannel_systemActive (s : State) (x : BitVec 2) (c : Channel) : (s.setChannel x c).systemActive = s.systemActive := rfl
@[simp] theorem State.setChannel_ccwdWait (s : State) (x : BitVec 2) (c : Channel) : (s.setChannel x c).ccwdWait = s.ccwdWait := rfl
@[simp] theorem State.setChannel_autoLoad (s : State) (x : BitVec 2) (c : Channel) : (s.setChannel x c).autoLoad = s.autoLoad := rfl
@[simp] theorem State.setChannel_passedExit (s : State) (x : BitVec 2) (c : Channel) : (s.setChannel x c).passedExit = s.passedExit := rfl
@[simp] theorem State.setChannel_stopRequest (s : State) (x : BitVec 2) (c : Channel) : (s.setChannel x c).stopRequest = s.stopRequest := rfl
@[simp] theorem State.setChannel_restartRequest (s : State) (x : BitVec 2) (c : Channel) : (s.setChannel x c).restartRequest = s.restartRequest := rfl
@[simp] theorem State.setChannel_stopAfterRead (s : State) (x : BitVec 2) (c : Channel) : (s.setChannel x c).stopAfterRead = s.stopAfterRead := rfl
@[simp] theorem State.setChannel_progress (s : State) (x : BitVec 2) (c : Channel) : (s.setChannel x c).progress = s.progress := rfl
@[simp] theorem State.setChannel_resumed (s : State) (x : BitVec 2) (c : Channel) : (s.setChannel x c).resumed = s.resumed := rfl
@[simp] theorem State.setChannel_answers (s : State) (x : BitVec 2) (c : Channel) : (s.setChannel x c).answers = s.answers := rfl
@[simp] theorem State.setChannel_moves (s : State) (x : BitVec 2) (c : Channel) : (s.setChannel x c).moves = s.moves := rfl
@[simp] theorem State.setChannel_slots (s : State) (x : BitVec 2) (c : Channel) : (s.setChannel x c).slots = s.slots := rfl
@[simp] theorem State.setChannel_draws (s : State) (x : BitVec 2) (c : Channel) : (s.setChannel x c).draws = s.draws := rfl

/-! `noteOperand` leaves every field it does not write. -/

@[simp] theorem State.noteOperand_config (s : State) (a : Addr) : (s.noteOperand a).config = s.config := rfl
@[simp] theorem State.noteOperand_a (s : State) (a : Addr) : (s.noteOperand a).a = s.a := rfl
@[simp] theorem State.noteOperand_q (s : State) (a : Addr) : (s.noteOperand a).q = s.q := rfl
@[simp] theorem State.noteOperand_index (s : State) (a : Addr) : (s.noteOperand a).index = s.index := rfl
@[simp] theorem State.noteOperand_p (s : State) (a : Addr) : (s.noteOperand a).p = s.p := rfl
@[simp] theorem State.noteOperand_u (s : State) (a : Addr) : (s.noteOperand a).u = s.u := rfl
@[simp] theorem State.noteOperand_half (s : State) (a : Addr) : (s.noteOperand a).half = s.half := rfl
@[simp] theorem State.noteOperand_needRni (s : State) (a : Addr) : (s.noteOperand a).needRni = s.needRni := rfl
@[simp] theorem State.noteOperand_running (s : State) (a : Addr) : (s.noteOperand a).running = s.running := rfl
@[simp] theorem State.noteOperand_slsStopped (s : State) (a : Addr) : (s.noteOperand a).slsStopped = s.slsStopped := rfl
@[simp] theorem State.noteOperand_augPending (s : State) (a : Addr) : (s.noteOperand a).augPending = s.augPending := rfl
@[simp] theorem State.noteOperand_augT (s : State) (a : Addr) : (s.noteOperand a).augT = s.augT := rfl
@[simp] theorem State.noteOperand_irff (s : State) (a : Addr) : (s.noteOperand a).irff = s.irff := rfl
@[simp] theorem State.noteOperand_mask (s : State) (a : Addr) : (s.noteOperand a).mask = s.mask := rfl
@[simp] theorem State.noteOperand_intActive (s : State) (a : Addr) : (s.noteOperand a).intActive = s.intActive := rfl
@[simp] theorem State.noteOperand_mode1 (s : State) (a : Addr) : (s.noteOperand a).mode1 = s.mode1 := rfl
@[simp] theorem State.noteOperand_mode2 (s : State) (a : Addr) : (s.noteOperand a).mode2 = s.mode2 := rfl
@[simp] theorem State.noteOperand_mode3 (s : State) (a : Addr) : (s.noteOperand a).mode3 = s.mode3 := rfl
@[simp] theorem State.noteOperand_exit1 (s : State) (a : Addr) : (s.noteOperand a).exit1 = s.exit1 := rfl
@[simp] theorem State.noteOperand_exit2 (s : State) (a : Addr) : (s.noteOperand a).exit2 = s.exit2 := rfl
@[simp] theorem State.noteOperand_exit3 (s : State) (a : Addr) : (s.noteOperand a).exit3 = s.exit3 := rfl
@[simp] theorem State.noteOperand_lockout (s : State) (a : Addr) : (s.noteOperand a).lockout = s.lockout := rfl
@[simp] theorem State.noteOperand_bl (s : State) (a : Addr) : (s.noteOperand a).bl = s.bl := rfl
@[simp] theorem State.noteOperand_bu (s : State) (a : Addr) : (s.noteOperand a).bu = s.bu := rfl
@[simp] theorem State.noteOperand_memory (s : State) (a : Addr) : (s.noteOperand a).memory = s.memory := rfl
@[simp] theorem State.noteOperand_badParity (s : State) (a : Addr) : (s.noteOperand a).badParity = s.badParity := rfl
@[simp] theorem State.noteOperand_channels (s : State) (a : Addr) : (s.noteOperand a).channels = s.channels := rfl
@[simp] theorem State.noteOperand_typewriter (s : State) (a : Addr) : (s.noteOperand a).typewriter = s.typewriter := rfl
@[simp] theorem State.noteOperand_console (s : State) (a : Addr) : (s.noteOperand a).console = s.console := rfl
@[simp] theorem State.noteOperand_systemActive (s : State) (a : Addr) : (s.noteOperand a).systemActive = s.systemActive := rfl
@[simp] theorem State.noteOperand_ccwdWait (s : State) (a : Addr) : (s.noteOperand a).ccwdWait = s.ccwdWait := rfl
@[simp] theorem State.noteOperand_autoLoad (s : State) (a : Addr) : (s.noteOperand a).autoLoad = s.autoLoad := rfl
@[simp] theorem State.noteOperand_passedExit (s : State) (a : Addr) : (s.noteOperand a).passedExit = s.passedExit := rfl
@[simp] theorem State.noteOperand_restartRequest (s : State) (a : Addr) : (s.noteOperand a).restartRequest = s.restartRequest := rfl
@[simp] theorem State.noteOperand_stopAfterRead (s : State) (a : Addr) : (s.noteOperand a).stopAfterRead = s.stopAfterRead := rfl
@[simp] theorem State.noteOperand_progress (s : State) (a : Addr) : (s.noteOperand a).progress = s.progress := rfl
@[simp] theorem State.noteOperand_resumed (s : State) (a : Addr) : (s.noteOperand a).resumed = s.resumed := rfl
@[simp] theorem State.noteOperand_answers (s : State) (a : Addr) : (s.noteOperand a).answers = s.answers := rfl
@[simp] theorem State.noteOperand_moves (s : State) (a : Addr) : (s.noteOperand a).moves = s.moves := rfl
@[simp] theorem State.noteOperand_slots (s : State) (a : Addr) : (s.noteOperand a).slots = s.slots := rfl
@[simp] theorem State.noteOperand_draws (s : State) (a : Addr) : (s.noteOperand a).draws = s.draws := rfl

/-! `again` leaves every field it does not write. -/

@[simp] theorem State.again_config (s : State) (g : Progress) : (s.again g).config = s.config := rfl
@[simp] theorem State.again_a (s : State) (g : Progress) : (s.again g).a = s.a := rfl
@[simp] theorem State.again_q (s : State) (g : Progress) : (s.again g).q = s.q := rfl
@[simp] theorem State.again_index (s : State) (g : Progress) : (s.again g).index = s.index := rfl
@[simp] theorem State.again_p (s : State) (g : Progress) : (s.again g).p = s.p := rfl
@[simp] theorem State.again_u (s : State) (g : Progress) : (s.again g).u = s.u := rfl
@[simp] theorem State.again_half (s : State) (g : Progress) : (s.again g).half = s.half := rfl
@[simp] theorem State.again_needRni (s : State) (g : Progress) : (s.again g).needRni = s.needRni := rfl
@[simp] theorem State.again_running (s : State) (g : Progress) : (s.again g).running = s.running := rfl
@[simp] theorem State.again_augPending (s : State) (g : Progress) : (s.again g).augPending = s.augPending := rfl
@[simp] theorem State.again_augT (s : State) (g : Progress) : (s.again g).augT = s.augT := rfl
@[simp] theorem State.again_irff (s : State) (g : Progress) : (s.again g).irff = s.irff := rfl
@[simp] theorem State.again_mask (s : State) (g : Progress) : (s.again g).mask = s.mask := rfl
@[simp] theorem State.again_intActive (s : State) (g : Progress) : (s.again g).intActive = s.intActive := rfl
@[simp] theorem State.again_mode1 (s : State) (g : Progress) : (s.again g).mode1 = s.mode1 := rfl
@[simp] theorem State.again_mode2 (s : State) (g : Progress) : (s.again g).mode2 = s.mode2 := rfl
@[simp] theorem State.again_mode3 (s : State) (g : Progress) : (s.again g).mode3 = s.mode3 := rfl
@[simp] theorem State.again_exit1 (s : State) (g : Progress) : (s.again g).exit1 = s.exit1 := rfl
@[simp] theorem State.again_exit2 (s : State) (g : Progress) : (s.again g).exit2 = s.exit2 := rfl
@[simp] theorem State.again_exit3 (s : State) (g : Progress) : (s.again g).exit3 = s.exit3 := rfl
@[simp] theorem State.again_lockout (s : State) (g : Progress) : (s.again g).lockout = s.lockout := rfl
@[simp] theorem State.again_bl (s : State) (g : Progress) : (s.again g).bl = s.bl := rfl
@[simp] theorem State.again_bu (s : State) (g : Progress) : (s.again g).bu = s.bu := rfl
@[simp] theorem State.again_memory (s : State) (g : Progress) : (s.again g).memory = s.memory := rfl
@[simp] theorem State.again_badParity (s : State) (g : Progress) : (s.again g).badParity = s.badParity := rfl
@[simp] theorem State.again_channels (s : State) (g : Progress) : (s.again g).channels = s.channels := rfl
@[simp] theorem State.again_typewriter (s : State) (g : Progress) : (s.again g).typewriter = s.typewriter := rfl
@[simp] theorem State.again_console (s : State) (g : Progress) : (s.again g).console = s.console := rfl
@[simp] theorem State.again_systemActive (s : State) (g : Progress) : (s.again g).systemActive = s.systemActive := rfl
@[simp] theorem State.again_ccwdWait (s : State) (g : Progress) : (s.again g).ccwdWait = s.ccwdWait := rfl
@[simp] theorem State.again_autoLoad (s : State) (g : Progress) : (s.again g).autoLoad = s.autoLoad := rfl
@[simp] theorem State.again_passedExit (s : State) (g : Progress) : (s.again g).passedExit = s.passedExit := rfl
@[simp] theorem State.again_stopRequest (s : State) (g : Progress) : (s.again g).stopRequest = s.stopRequest := rfl
@[simp] theorem State.again_restartRequest (s : State) (g : Progress) : (s.again g).restartRequest = s.restartRequest := rfl
@[simp] theorem State.again_stopAfterRead (s : State) (g : Progress) : (s.again g).stopAfterRead = s.stopAfterRead := rfl
@[simp] theorem State.again_resumed (s : State) (g : Progress) : (s.again g).resumed = s.resumed := rfl
@[simp] theorem State.again_answers (s : State) (g : Progress) : (s.again g).answers = s.answers := rfl
@[simp] theorem State.again_moves (s : State) (g : Progress) : (s.again g).moves = s.moves := rfl
@[simp] theorem State.again_slots (s : State) (g : Progress) : (s.again g).slots = s.slots := rfl
@[simp] theorem State.again_draws (s : State) (g : Progress) : (s.again g).draws = s.draws := rfl

end Sys2Proof.Machine
end

