-- ==== Sys2Proof/Laws/Ops.lean ====
section
/-! SUPPORT. What each shared operation can do, said once: the storage references of the program in a quiet
environment, and what follows from their answering a next state. -/

namespace Sys2Proof.Machine

/-- Events that answer a next state lead to a state from which the rest answers it. -/
theorem State.runEvents_next (es : List Async) (s t : State) (k : State → Result)
    (h : s.runEvents es k = .next t) : ∃ s1, s.runEvents es .next = .next s1 ∧ k s1 = .next t := by
  induction es generalizing s with
  | nil => exact ⟨s, rfl, h⟩
  | cons e rest ih =>
    simp only [State.runEvents] at h ⊢
    cases hp : e.perform s with
    | next s' => rw [hp] at h; simpa using ih s' h
    | fault f => rw [hp] at h; simp at h
    | refused r => rw [hp] at h; simp at h

/-- The events before a reference: either none, or the head list of `slots`. -/
theorem State.slot_next (s t : State) (k : State → Result) (h : s.slot k = .next t) :
    ∃ s1, s.slot .next = .next s1 ∧ k s1 = .next t := by
  unfold State.slot at h ⊢
  split at h
  · exact ⟨s, rfl, h⟩
  · exact State.runEvents_next _ _ _ _ h

/-- What an operand read that answers a next state did: the word exists, events happened, the word was delivered. -/
theorem State.readOperand_next (s t : State) (a : Addr) (k : State → Word → Result)
    (h : s.readOperand a k = .next t) :
    s.hasWord a = true ∧ ∃ s1, s.slot .next = .next s1 ∧ k (s1.noteRead a) (Memory.word s1.memory a) = .next t := by
  unfold State.readOperand at h
  split at h
  · rename_i hw
    exact ⟨hw, State.slot_next _ _ _ h⟩
  · simp at h

/-- What a whole-word store that answers a next state did. -/
theorem State.writeWord_next (s t : State) (a : Addr) (v : Word) (k : State → Result)
    (h : s.writeWord a v k = .next t) :
    s.hasWord a = true ∧ ∃ s1, s.slot .next = .next s1
      ∧ k { s1.noteOperand a with memory := Memory.setWord s1.memory a v } = .next t := by
  unfold State.writeWord at h
  split at h
  · rename_i hw
    exact ⟨hw, State.slot_next _ _ _ h⟩
  · simp at h

/-- What a partial store that answers a next state did: the word exists, events happened, one field was stored. -/
theorem State.writeField_next {n : Nat} (s t : State) (a : Addr) (lo : Nat) (v : BitVec n) (k : State → Result)
    (h : s.writeField a lo v k = .next t) :
    s.hasWord a = true ∧ ∃ s1, s.slot .next = .next s1
      ∧ k { s1.noteOperand a with memory := Memory.setField s1.memory a lo v } = .next t := by
  unfold State.writeField at h
  split at h
  · rename_i hw
    exact ⟨hw, State.slot_next _ _ _ h⟩
  · simp at h

/-- A checked store either takes the bounds fault or makes the store. -/
theorem State.storeWord_next (s t : State) (a : Addr) (v : Word) (k : State → Result)
    (h : s.storeWord a v k = .next t) :
    (s.outOfBounds a = true ∧ s.boundsFault = .next t) ∨ (s.outOfBounds a = false ∧ s.writeWord a v k = .next t) := by
  unfold State.storeWord at h
  cases hb : s.outOfBounds a <;> simp_all

/-- A checked partial store either takes the bounds fault or makes the store. -/
theorem State.storeField_next {n : Nat} (s t : State) (a : Addr) (lo : Nat) (v : BitVec n) (k : State → Result)
    (h : s.storeField a lo v k = .next t) :
    (s.outOfBounds a = true ∧ s.boundsFault = .next t) ∨ (s.outOfBounds a = false ∧ s.writeField a lo v k = .next t) := by
  unfold State.storeField at h
  cases hb : s.outOfBounds a <;> simp_all

/-- A jump either takes the bounds fault or transfers control. -/
theorem State.jumpTo_next (s t : State) (plain : Bool) (m : Addr) (h : s.jumpTo plain m = .next t) :
    (s.outOfBounds m = true ∧ s.boundsFault = .next t) ∨ (s.outOfBounds m = false ∧ t = s.transfer plain m .upper) := by
  unfold State.jumpTo at h
  cases hb : s.outOfBounds m <;> simp_all

/-- With no slots left nothing falls before a reference. -/
theorem State.slot_undisturbed (s : State) (k : State → Result) (h : s.slots = []) : s.slot k = k s := by
  unfold State.slot
  rw [h]

/-- In a quiet environment nothing falls before a reference. -/
theorem State.slot_quiet (s : State) (k : State → Result) (h : s.Quiet) : s.slot k = k s :=
  State.slot_undisturbed s k h.1

theorem State.noteOperand_quiet (s : State) (a : Addr) (h : s.Quiet) : s.noteOperand a = s := by
  obtain ⟨_, _, h3, h4⟩ := h
  have : (s.stopRequest || s.breakOperand a) = s.stopRequest := by simp [State.breakOperand, h3, h4]
  unfold State.noteOperand
  rw [this]

theorem State.noteRead_quiet (s : State) (a : Addr) (h : s.Quiet) : s.noteRead a = s := by
  unfold State.noteRead
  rw [State.noteOperand_quiet s a h]
  simp [State.setIrIf, h.2.1]

/-- An operand read in a quiet environment delivers the word and leaves nothing else. -/
theorem State.readOperand_quiet (s : State) (a : Addr) (k : State → Word → Result) (h : s.Quiet)
    (hw : s.hasWord a = true) : s.readOperand a k = k s (Memory.word s.memory a) := by
  unfold State.readOperand
  rw [if_pos hw, State.slot_quiet _ _ h, State.noteRead_quiet _ _ h]

/-- A whole-word store in a quiet environment changes that word only. -/
theorem State.writeWord_quiet (s : State) (a : Addr) (v : Word) (k : State → Result) (h : s.Quiet)
    (hw : s.hasWord a = true) : s.writeWord a v k = k { s with memory := Memory.setWord s.memory a v } := by
  unfold State.writeWord
  rw [if_pos hw, State.slot_quiet _ _ h, State.noteOperand_quiet _ _ h]

/-- A partial store in a quiet environment changes that field only. -/
theorem State.writeField_quiet {n : Nat} (s : State) (a : Addr) (lo : Nat) (v : BitVec n) (k : State → Result)
    (h : s.Quiet) (hw : s.hasWord a = true) :
    s.writeField a lo v k = k { s with memory := Memory.setField s.memory a lo v } := by
  unfold State.writeField
  rw [if_pos hw, State.slot_quiet _ _ h, State.noteOperand_quiet _ _ h]

/-- A checked whole-word store in bounds. -/
theorem State.storeWord_quiet (s : State) (a : Addr) (v : Word) (k : State → Result) (h : s.Quiet)
    (hw : s.hasWord a = true) (hb : s.outOfBounds a = false) :
    s.storeWord a v k = k { s with memory := Memory.setWord s.memory a v } := by
  unfold State.storeWord
  rw [hb]
  exact State.writeWord_quiet s a v k h hw

/-- A checked partial store in bounds. -/
theorem State.storeField_quiet {n : Nat} (s : State) (a : Addr) (lo : Nat) (v : BitVec n) (k : State → Result)
    (h : s.Quiet) (hw : s.hasWord a = true) (hb : s.outOfBounds a = false) :
    s.storeField a lo v k = k { s with memory := Memory.setField s.memory a lo v } := by
  unfold State.storeField
  rw [hb]
  exact State.writeField_quiet s a lo v k h hw

/-- With b = 0 to 6 there is no indirect level. -/
theorem State.effective_direct (s : State) (b : Desig) (m : Addr) (k : Addr → Result) (h : b ≠ 7) :
    s.effective b m k = k (s.modified b m) := by
  unfold State.effective State.resolve
  exact if_neg h

theorem State.resolve_direct (s : State) (b : Desig) (m : Addr) (k : Result) (h : b ≠ 7) : s.resolve b m k = k := by
  unfold State.resolve
  exact if_neg h

theorem State.bankEffective_direct (s : State) (b : Desig) (m : Addr) (jump : Desig → Addr → Instr) (k : Addr → Result)
    (h : b ≠ 7) : s.bankEffective b m jump k = k (s.modified b m) := by
  unfold State.bankEffective
  exact if_neg h

/-- The operand of an instruction in a quiet environment. -/
theorem State.withOperand_quiet (s : State) (b : Desig) (m : Addr) (k : State → Word → Result) (h : s.Quiet)
    (hb : b ≠ 7) (hw : s.hasWord (s.modified b m) = true) :
    s.withOperand b m k = k s (Memory.word s.memory (s.modified b m)) := by
  unfold State.withOperand
  rw [State.effective_direct _ _ _ _ hb, State.readOperand_quiet _ _ _ h hw]

/-- A jump in bounds. -/
theorem State.jumpTo_inBounds (s : State) (plain : Bool) (m : Addr) (hb : s.outOfBounds m = false) :
    s.jumpTo plain m = .next (s.transfer plain m .upper) := by
  simp [State.jumpTo, hb]

/-- Away from the fixed words a transfer lands where the jump says. -/
theorem State.transfer_ordinary (s : State) (plain : Bool) (t : Addr) (own : Half) (h : s.fixedWord s.p = none) :
    s.transfer plain t own = s.land t own := by
  simp [State.transfer, h]

/-- The exit: an upper normal jump out of a fixed word whose mode is set. -/
theorem State.transfer_exit (s : State) (c : Category) (t : Addr) (hf : s.fixedWord s.p = some c)
    (hh : s.half = .upper) (hm : s.mode c = true) : s.transfer true t .upper = s.exitLanding c t := by
  simp [State.transfer, hf, hh, hm]

theorem State.entryParity_memory (s : State) (f : Addr) : (s.entryParity f).memory = s.memory := by
  unfold State.entryParity
  split
  · split <;> rfl
  · rfl

theorem State.entryParity_position (s : State) (f : Addr) :
    (s.entryParity f).p = s.p ∧ (s.entryParity f).half = s.half ∧ (s.entryParity f).needRni = s.needRni := by
  unfold State.entryParity
  split
  · split <;> exact ⟨rfl, rfl, rfl⟩
  · exact ⟨rfl, rfl, rfl⟩

/-- The memory after an interrupt entry: only the upper address of the fixed word is changed. -/
theorem State.enter_memory (s : State) (f ret : Addr) :
    (s.enter f ret).memory = Memory.setField s.memory f 24 ret := State.entryParity_memory _ _

/-- Where an interrupt entry continues. -/
theorem State.enter_position (s : State) (f ret : Addr) :
    (s.enter f ret).p = f ∧ (s.enter f ret).half = .lower ∧ (s.enter f ret).needRni = false :=
  State.entryParity_position _ _

/-- An interrupt entry with good parity at the fixed word. -/
theorem State.enter_goodParity (s : State) (f ret : Addr) (h : s.badParity = []) : s.enter f ret = s.entered f ret := by
  have hb : (s.entered f ret).badParity = [] := h
  unfold State.enter State.entryParity
  rw [hb]
  rfl

/-- What a Category I entry inside a turn does: events, then the entry. -/
theorem State.cat1Interrupt_next (s t : State) (pn : Addr) (hn : Half) (h : s.cat1Interrupt pn hn = .next t) :
    ∃ s1, s.slot .next = .next s1 ∧ t = s1.cat1Entry pn hn := by
  obtain ⟨s1, h1, h2⟩ := State.slot_next _ _ _ h
  cases h2
  exact ⟨s1, h1, rfl⟩

/-- What the return jump of a Category II or III entry does: events, the store, events, the read. -/
theorem State.trapJump_next (s t : State) (f ret : Addr) (h : s.trapJump f ret = .next t) :
    ∃ s1 s2, s.slot .next = .next s1
      ∧ ({ s1 with memory := Memory.setField s1.memory f 24 ret } : State).slot .next = .next s2
      ∧ t = (s2.arrive f).entryParity f := by
  obtain ⟨s1, h1, h2⟩ := State.slot_next _ _ _ h
  obtain ⟨s2, h3, h4⟩ := State.slot_next _ _ _ h2
  cases h4
  exact ⟨s1, s2, h1, h3, rfl⟩

/-- The return jump of a Category II or III entry with no event before its references and good parity. -/
theorem State.trapJump_undisturbed (s : State) (f ret : Addr) (hs : s.slots = []) (hp : s.badParity = []) :
    s.trapJump f ret = .next (s.entered f ret) := by
  unfold State.trapJump
  rw [State.slot_undisturbed _ _ hs, State.slot_undisturbed _ _ (by exact hs)]
  exact congrArg Host.Outcome.next (State.enter_goodParity s f ret hp)

/-- A bounds fault with no event before its entry and good parity. -/
theorem State.boundsFault_undisturbed (s : State) (hs : s.slots = []) (hp : s.badParity = []) :
    s.boundsFault = .next s.faulted := by
  unfold State.boundsFault State.cat1Interrupt
  rw [State.slot_undisturbed _ _ (by exact hs)]
  exact congrArg Host.Outcome.next (State.enter_goodParity _ _ _ hp)

/-- An illegal instruction with no event before the references of its entry and good parity. -/
theorem State.illegal_undisturbed (s : State) (hs : s.slots = []) (hp : s.badParity = []) :
    s.illegal = .next s.trapped := by
  unfold State.illegal State.cat3Entry
  rw [State.trapJump_undisturbed _ _ _ (by exact hs) (by exact hp)]
  rfl

end Sys2Proof.Machine
end

