-- ==== Sys2Proof/Laws/Sound.lean ====
section
/-! SUPPORT. Which operations keep a state sound: the endings of an instruction, the events, and the references of the
program. -/

namespace Sys2Proof.Machine

/-- A result whose next state, if there is one, satisfies P. -/
def Result.Gives (P : State → Prop) (r : Result) : Prop := ∀ t, r = .next t → P t

theorem Result.gives_next {P : State → Prop} {t : State} (h : P t) : Result.Gives P (.next t) := by
  intro u hu
  cases hu
  exact h

theorem Result.gives_fault {P : State → Prop} (f : Fault) : Result.Gives P (.fault f) := by
  intro u hu
  cases hu

theorem Result.gives_refused {P : State → Prop} (r : Refusal) : Result.Gives P (.refused r) := by
  intro u hu
  cases hu

/-- Without a pending augment only the memory matters. -/
theorem State.Sound.of_clear {t : State} (hm : Memory.wf t.memory = true) (ha : t.augPending = false)
    (ht : t.augT = AugT.zero) : t.Sound :=
  ⟨hm, ⟨fun h => Bool.noConfusion (h.symm.trans ha), fun _ => ht⟩⟩

/-- Soundness depends on five fields. -/
theorem State.Sound.congr {s t : State} (h : s.Sound) (hm : Memory.wf t.memory = true)
    (ha : t.augPending = s.augPending) (ht : t.augT = s.augT) (hh : t.half = s.half)
    (hn : t.needRni = s.needRni) : t.Sound :=
  ⟨hm, ⟨fun p => by rw [hh, hn]; exact h.2.1 (ha ▸ p), fun p => by rw [ht]; exact h.2.2 (ha ▸ p)⟩⟩

theorem State.sound_advance {s : State} (hm : Memory.wf s.memory = true) : s.advance.Sound :=
  .of_clear hm rfl rfl

theorem State.sound_next24 {s : State} (hm : Memory.wf s.memory = true) : s.next24.Sound :=
  .of_clear (by simpa using hm) (by simp) (by simp)

theorem State.sound_skipIf {s : State} (c : Bool) (hm : Memory.wf s.memory = true) : (s.skipIf c).Sound := by
  cases c
  · exact State.sound_next24 hm
  · exact State.sound_advance hm

theorem State.sound_land {s : State} (t : Addr) (h : Half) (hm : Memory.wf s.memory = true) : (s.land t h).Sound :=
  .of_clear hm rfl rfl

theorem State.sound_clearMode {s : State} (c : Category) (h : s.Sound) : (s.clearMode c).Sound := by
  cases c <;> exact h

theorem State.sound_transfer {s : State} (plain : Bool) (t : Addr) (own : Half) (hm : Memory.wf s.memory = true) :
    (s.transfer plain t own).Sound := by
  have hf : ∀ c, (s.freeLanding c t own).Sound := by
    intro c
    unfold State.freeLanding
    simp only
    split
    · exact State.sound_clearMode _ (State.sound_land _ _ hm)
    · exact State.sound_land _ _ hm
  unfold State.transfer
  split
  · exact State.sound_land _ _ hm
  · split
    · split
      · exact State.sound_clearMode _ (State.sound_land _ _ hm)
      · exact hf _
    · split
      · exact hf _
      · exact State.sound_land _ _ hm

/-- The arrival at a fixed word, with its parity. -/
theorem State.sound_arrive {s : State} (f : Addr) (hm : Memory.wf s.memory = true) :
    ((s.arrive f).entryParity f).Sound := by
  have h : (s.arrive f).Sound := .of_clear hm rfl rfl
  unfold State.entryParity
  split
  · split <;> exact h.congr h.1 rfl rfl rfl rfl
  · exact h

theorem State.sound_enter {s : State} (f ret : Addr) (hm : Memory.wf s.memory = true) : (s.enter f ret).Sound :=
  State.sound_arrive (s := { s with memory := Memory.setField s.memory f 24 ret }) f (Memory.wf_setField _ _ _ _ hm)

theorem State.sound_setChannel {s : State} (x : BitVec 2) (c : Channel) (h : s.Sound) : (s.setChannel x c).Sound := h

theorem State.sound_setIr {s : State} (i : Nat) (h : s.Sound) : (s.setIr i).Sound := h

theorem State.sound_setIrIf {s : State} (i : Nat) (c : Bool) (h : s.Sound) : (s.setIrIf i c).Sound := by
  cases c <;> exact h

theorem State.sound_endWait {s : State} (hm : Memory.wf s.memory = true) : s.endWait.Sound :=
  .of_clear hm rfl rfl

theorem State.sound_wentInactive {s : State} (x : BitVec 2) (h : s.Sound) : (s.wentInactive x).Sound := by
  unfold State.wentInactive
  split
  · exact State.sound_endWait h.1
  · split
    · exact .of_clear h.1 rfl rfl
    · exact h

theorem State.sound_lowerCase {s : State} (x : BitVec 2) (h : s.Sound) : (s.lowerCase x).Sound := by
  unfold State.lowerCase
  split <;> exact h

theorem State.sound_deactivate {s : State} (x : BitVec 2) (h : s.Sound) : (s.deactivate x).Sound :=
  State.sound_wentInactive _ (State.sound_setIr _ (State.sound_setChannel _ _ (State.sound_lowerCase _ h)))

theorem State.sound_endIfDone {s : State} (x : BitVec 2) (h : s.Sound) : (s.endIfDone x).Sound := by
  unfold State.endIfDone State.endOfBlock
  split
  · split
    · exact State.sound_endWait h.1
    · exact State.sound_deactivate _ h
  · exact h

theorem State.sound_channelStore {s : State} (x : BitVec 2) (w : Word) (h : s.Sound) : (s.channelStore x w).Sound :=
  h.congr (Memory.wf_setWord _ _ _ h.1) rfl rfl rfl rfl

theorem State.sound_inputWord {s : State} (x : BitVec 2) (w : Word) (h : s.Sound) :
    Result.Gives State.Sound (s.inputWord x w) := by
  unfold State.inputWord
  split
  · exact Result.gives_next (State.sound_endIfDone _ (State.sound_channelStore _ _ h))
  · exact Result.gives_fault _

theorem State.sound_storeAndEnd {s : State} (x : BitVec 2) (w : Word) (h : s.Sound) :
    Result.Gives State.Sound (s.storeAndEnd x w) := by
  unfold State.storeAndEnd
  split
  · exact Result.gives_next (State.sound_deactivate _ (State.sound_channelStore _ _ h))
  · exact Result.gives_fault _

theorem State.sound_takeByte {s : State} (x : BitVec 2) (b : BitVec 12) (bad : Bool) (h : s.Sound) :
    (s.takeByte x b bad).Sound := by
  unfold State.takeByte
  split <;> exact h

theorem State.sound_presentWord {s : State} (x : BitVec 2) (h : s.Sound) : (s.presentWord x).Sound := by
  unfold State.presentWord
  split <;> exact h

theorem State.sound_keyWord {s : State} (x : BitVec 2) (code : BitVec 6) (bad halt : Bool) (h : s.Sound) :
    Result.Gives State.Sound (s.keyWord x code bad halt) :=
  State.sound_inputWord (s := ({ s with
    typewriter := { s.typewriter with uncleared := s.typewriter.uncleared || bad } } : State).setChannel x _) _ _ h

theorem State.sound_corruptWord {s : State} (a : Addr) (w : Word) (h : s.Sound) : (s.corruptWord a w).Sound := by
  unfold State.corruptWord
  split
  · exact h.congr (Memory.wf_setWord _ _ _ h.1) rfl rfl rfl rfl
  · exact h

/-- Every event keeps a state sound. -/
theorem Async.sound (e : Async) {s : State} (h : s.Sound) : Result.Gives State.Sound (e.perform s) := by
  cases e with
  | byteIn x b rev bad halt =>
    simp only [Async.perform, State.byteIn]
    split
    · split
      · exact Result.gives_next h
      · exact State.sound_inputWord _ _ h
    · exact Result.gives_next h
  | wordOut x n =>
    simp only [Async.perform, State.wordOut]
    split
    · split
      · exact Result.gives_next (State.sound_setChannel _ _ (State.sound_setIrIf _ _ (State.sound_presentWord _ h)))
      · exact Result.gives_fault _
    · exact Result.gives_next h
  | byteOut x bad halt =>
    simp only [Async.perform, State.byteOut]
    split
    · split
      · exact Result.gives_next
          (State.sound_endIfDone _ (State.sound_setChannel _ _ (State.sound_takeByte _ _ _ h)))
      · exact Result.gives_next (State.sound_setChannel _ _ (State.sound_takeByte _ _ _ h))
    · exact Result.gives_next h
  | endOfRecord x =>
    simp only [Async.perform, State.endOfRecord]
    split
    · split
      · exact Result.gives_next (State.sound_deactivate _ h)
      · split
        · exact State.sound_storeAndEnd _ _ h
        · exact State.sound_storeAndEnd _ _ h
    · exact Result.gives_next h
  | line x e level =>
    simp only [Async.perform, State.lineEvent]
    refine Result.gives_next ?_
    split
    · exact h
    · split <;> exact h
  | status x v => exact Result.gives_next h
  | tick =>
    refine Result.gives_next ?_
    split <;> exact h
  | manualInterrupt =>
    refine Result.gives_next ?_
    split <;> exact h
  | parity a bad => exact Result.gives_next h
  | corrupt a w => exact Result.gives_next (State.sound_corruptWord a w h)
  | key c bad halt =>
    simp only [Async.perform, State.keyEvent]
    split
    · exact Result.gives_next h
    · split
      · exact State.sound_keyWord (s := { s with typewriter := s.typewriter.strike c }) _ _ _ _ h
      · split <;> exact Result.gives_next h
  | typewriterEndOfRecord =>
    simp only [Async.perform, State.typewriterEnd]
    split
    · exact State.sound_storeAndEnd _ _ h
    · exact Result.gives_next h
  | typewriterEndOfLine =>
    refine Result.gives_next ?_
    unfold State.reachMargin
    split <;> exact h
  | typewriterTypeParity =>
    refine Result.gives_next ?_
    unfold State.typeParityError
    split <;> exact h
  | typewriterReady =>
    refine Result.gives_next ?_
    unfold State.typewriterIdle
    split <;> exact h

/-- A list of events keeps a state sound. -/
theorem State.sound_runEvents (es : List Async) {s : State} (k : State → Result) (P : State → Prop) (h : s.Sound)
    (hk : ∀ s1 : State, s1.Sound → Result.Gives P (k s1)) : Result.Gives P (s.runEvents es k) := by
  induction es generalizing s with
  | nil => exact hk s h
  | cons e rest ih =>
    have he := Async.sound e h
    simp only [State.runEvents]
    cases hp : e.perform s with
    | next s' => exact ih (he s' hp)
    | fault f => exact Result.gives_fault _
    | refused r => exact Result.gives_refused _

/-- The events before a reference keep a state sound. -/
theorem State.sound_slot {s : State} (k : State → Result) (P : State → Prop) (h : s.Sound)
    (hk : ∀ s1 : State, s1.Sound → Result.Gives P (k s1)) : Result.Gives P (s.slot k) := by
  unfold State.slot
  split
  · exact hk s h
  · exact State.sound_runEvents _ k P h hk

/-- The entries inside a turn leave a sound state. -/
theorem State.sound_cat1Interrupt {s : State} (pn : Addr) (hn : Half) (h : s.Sound) :
    Result.Gives State.Sound (s.cat1Interrupt pn hn) :=
  State.sound_slot _ _ h (fun _ h1 => Result.gives_next (State.sound_enter _ _ h1.1))

theorem State.sound_boundsFault {s : State} (h : s.Sound) : Result.Gives State.Sound s.boundsFault :=
  State.sound_cat1Interrupt (s := s.setIr 42) _ _ h

theorem State.sound_trapJump {s : State} (f ret : Addr) (h : s.Sound) :
    Result.Gives State.Sound (s.trapJump f ret) := by
  refine State.sound_slot _ _ h (fun s1 h1 => ?_)
  have hs : ({ s1 with memory := Memory.setField s1.memory f 24 ret } : State).Sound :=
    h1.congr (Memory.wf_setField _ _ _ _ h1.1) rfl rfl rfl rfl
  exact State.sound_slot _ _ hs (fun _ h2 => Result.gives_next (State.sound_arrive f h2.1))

theorem State.sound_jumpTo {s : State} (plain : Bool) (t : Addr) (h : s.Sound) :
    Result.Gives State.Sound (s.jumpTo plain t) := by
  unfold State.jumpTo
  split
  · exact State.sound_boundsFault h
  · exact Result.gives_next (State.sound_transfer _ _ _ h.1)

theorem State.sound_noteRead {s : State} (a : Addr) (h : s.Sound) : (s.noteRead a).Sound :=
  State.sound_setIrIf (s := s.noteOperand a) _ _ h

/-- An operand read keeps a state sound. -/
theorem State.sound_readOperand {s : State} (a : Addr) (k : State → Word → Result) (P : State → Prop) (h : s.Sound)
    (hk : ∀ (s1 : State) (x : Word), s1.Sound → Result.Gives P (k s1 x)) :
    Result.Gives P (s.readOperand a k) := by
  unfold State.readOperand
  split
  · exact State.sound_slot _ P h (fun s1 h1 => hk _ _ (State.sound_noteRead a h1))
  · exact Result.gives_fault _

/-- A store keeps a state sound. -/
theorem State.sound_writeWord {s : State} (a : Addr) (v : Word) (k : State → Result) (P : State → Prop) (h : s.Sound)
    (hk : ∀ s1 : State, s1.Sound → Result.Gives P (k s1)) : Result.Gives P (s.writeWord a v k) := by
  unfold State.writeWord
  split
  · exact State.sound_slot _ P h
      (fun s1 h1 => hk _ (h1.congr (Memory.wf_setWord _ _ _ h1.1) rfl rfl rfl rfl))
  · exact Result.gives_fault _

/-- A partial store keeps a state sound. -/
theorem State.sound_writeField {n : Nat} {s : State} (a : Addr) (lo : Nat) (v : BitVec n) (k : State → Result)
    (P : State → Prop) (h : s.Sound) (hk : ∀ s1 : State, s1.Sound → Result.Gives P (k s1)) :
    Result.Gives P (s.writeField a lo v k) := by
  unfold State.writeField
  split
  · exact State.sound_slot _ P h
      (fun s1 h1 => hk _ (h1.congr (Memory.wf_setField _ _ _ _ h1.1) rfl rfl rfl rfl))
  · exact Result.gives_fault _

/-- A channel cleared keeps a state sound. -/
theorem State.sound_wipeChannel {s : State} (x : BitVec 2) (h : s.Sound) : (s.wipeChannel x).Sound := by
  have h1 : (s.cutWrite x).Sound := by
    unfold State.cutWrite
    split
    · exact State.sound_lowerCase x h
    · exact h
  unfold State.wipeChannel
  simp only
  split <;> exact h1

/-- CLCH keeps a state sound. -/
theorem State.sound_clearChannel {s : State} (x : BitVec 2) (h : s.Sound) : (s.clearChannel x).Sound := by
  refine State.sound_wipeChannel x ?_
  split
  · unfold State.freeIr
    split <;> exact h
  · exact h

theorem State.sound_externalClear {s : State} (h : s.Sound) : s.externalClear.Sound := by
  have hi : ∀ (s : State) (x : BitVec 2), s.Sound → (s.wipeInstalled x).Sound := by
    intro s x hs
    unfold State.wipeInstalled
    split
    · exact State.sound_wipeChannel _ hs
    · exact hs
  have hf : s.freeInactive.Sound := h
  have hc : s.clearChannels.Sound := hi _ _ (hi _ _ (hi _ _ (hi _ _ hf)))
  unfold State.externalClear
  split
  · exact State.sound_endWait hc.1
  · exact hc

end Sys2Proof.Machine
end

