-- ==== Sys2Proof/Tests/Slice0.lean ====
section
/-! SUPPORT. Tests on fixed values.  Words, start values and results come from the spec: its encodings (30_encoding), the
examples of the rules, and spec/95_test_vectors.md.  The words of the open layouts (74.x, bank jumps, AUG) follow the
layouts that log 2, 3 and 4 choose. -/

namespace Sys2Proof.Tests

open Sys2Proof Sys2Proof.Machine

set_option Elab.async false

/-- A memory of words. -/
def words (l : List (Addr × Word)) : Memory := l.foldl (fun m c => Memory.setWord m c.1 c.2) []

/-- A running machine at 00100, its step in U, with some words in storage. -/
def start (l : List (Addr × Word)) : State :=
  { State.reset with running := true, needRni := false, p := 0o100, memory := words l }

/-- One quantity of the next state. -/
def got {α : Type} (r : Result) (f : State → α) : Option α :=
  match r with
  | .next t => some (f t)
  | _ => none

/-- The fault of a stop. -/
def stopped (r : Result) : Option Fault :=
  match r with
  | .fault f => some f
  | _ => none

/-- Where the machine goes on. -/
def place (t : State) : Addr × Half := (t.p, t.half)

/-- (A, Q). -/
def aq (t : State) : Word × Word := (t.a, t.q)

/-- The word at a. -/
def at_ (a : Addr) (t : State) : Word := Memory.word t.memory a

/-- Bounds checking in effect, with addresses 01000 to 01777 allowed. -/
def bounded (s : State) : State := { s with intActive := true, mask := bit48 42, bl := 4, bu := 8 }

/-! ## Well-formedness: each check refuses a term -/

theorem test_wf_ati_zero : (Instr.ati 0).wf Layouts.atReset = false := by decide
theorem test_wf_ati_seven : (Instr.ati 7).wf Layouts.atReset = false := by decide
theorem test_wf_illegal00_iaq : (Instr.illegal00 0o700554).wf Layouts.atReset = false := by decide
theorem test_wf_illegal00_ati : (Instr.illegal00 0o740543).wf Layouts.atReset = false := by decide
theorem test_wf_illegal63_character :
    (Instr.illegal63 0o03000650000700).wf Layouts.atReset = false := by decide
theorem test_wf_illegal63_bank : (Instr.illegal63 0o00000000100400).wf Layouts.atReset = false := by decide
theorem test_wf_undefined772_zero : (Instr.undefined772 0).wf Layouts.atReset = false := by decide
theorem test_wf_undefined772_one : (Instr.undefined772 1).wf Layouts.atReset = false := by decide
theorem test_wf_undefined774_zero : (Instr.undefined774 0).wf Layouts.atReset = false := by decide

/-- Layouts whose bank jumps carry the character pattern in their fill bits, with s in two pieces and 63.1's own places
for b and m. -/
def shadowed : Layouts :=
  { Layouts.atReset with
    bank := { sub := [36, 37, 38], s := [39, 41], b := [15, 16, 17], m := List.range 15, b1 := [0, 16, 1]
              m1 := List.range' 2 14 ++ [17], fill := 0o0000000650000000 } }

theorem test_wf_shadow_valid : shadowed.valid = true := by decide
theorem test_wf_ubjp_shadowed : (Instr.ubjp 0 0o400).wf shadowed = false := by decide
theorem test_wf_brtj_shadowed : (Instr.brtj 0 0o400).wf shadowed = false := by decide
theorem test_wf_bjpl_shadowed : (Instr.bjpl 5 0o400).wf shadowed = false := by decide
theorem test_wf_layouts : Layouts.atReset.valid = true := by decide
/-- Two fields that share a bit, or a field with a bit outside its word, are no layout. -/
theorem test_wf_layouts_refused :
    ({ Layouts.atReset.aug with v := [2, 3, 4] } : AugLayout).valid = false
      ∧ ({ Layouts.atReset.bank with s := [42] } : BankLayout).valid = false := by decide
/-- A bank jump of split fields reads back. -/
theorem test_decode_split :
    decodeEncoded shadowed (encode shadowed (.bjpl 5 0o40001)) = .instr (.bjpl 5 0o40001) := by decide

/-! ## Decoding: a word of each instruction -/

/-- The decoder on 24-bit words. -/
def reads (l : List (HalfWord × Instr)) : Bool := l.all (fun c => decode24 c.1 = .instr c.2)

/-- The decoder on whole words. -/
def readsWord (l : List (Word × Instr)) : Bool := l.all (fun c => decode Layouts.atReset .upper c.1 = .instr c.2)

theorem test_decode_f00_f07 : reads
    [(0o00700554, .iaq), (0o00740542, .ati 2), (0o00000000, .illegal00 0), (0o00740540, .illegal00 0o740540),
      (0o00740547, .illegal00 0o740547), (0o01100057, .ars 1 0o57), (0o02000004, .qrs 0 4), (0o03000141, .lrs 0 0o141),
      (0o04037777, .enq 0 0o37777), (0o05000003, .als 0 3), (0o06000006, .qls 0 6), (0o07000140, .lls 0 0o140)]
    = true := by decide
theorem test_decode_f10_f21 : reads
    [(0o10177777, .ena 1 0o77777), (0o11077776, .ina 0 0o77776), (0o12700300, .lda 7 0o300), (0o13000200, .lac 0 0o200),
      (0o14100210, .add 1 0o210), (0o15000200, .sub 0 0o200), (0o16200201, .ldq 2 0o201), (0o17000200, .lqc 0 0o200),
      (0o20000301, .sta 0 0o301), (0o21100300, .stq 1 0o300)] = true := by decide
theorem test_decode_f22_f27 : reads
    [(0o22000400, .ajp 0 0o400), (0o22300400, .ajp 3 0o400), (0o22700300, .arj 3 0o300), (0o22400300, .arj 0 0o300),
      (0o23100400, .qjp 1 0o400), (0o23600400, .qrj 2 0o400), (0o24000200, .mui 0 0o200), (0o25000200, .dvi 0 0o200),
      (0o26000000, .illegal26 0), (0o27123456, .illegal27 0o123456)] = true := by decide
theorem test_decode_f30_f47 : reads
    [(0o30000500, .fad 0 0o500), (0o31000500, .fsb 0 0o500), (0o32000500, .fmu 0 0o500), (0o33600500, .fdv 6 0o500),
      (0o34100060, .sca 1 0o60), (0o35100140, .scq 1 0o140), (0o36000200, .ssk 0 0o200), (0o37000200, .ssh 0 0o200),
      (0o40000200, .sst 0 0o200), (0o41000200, .scl 0 0o200), (0o42000200, .scm 0 0o200), (0o43000200, .ssu 0 0o200),
      (0o44000200, .ldl 0 0o200), (0o45000200, .adl 0 0o200), (0o46000200, .sbl 0 0o200), (0o47000200, .stl 0 0o200)]
    = true := by decide
theorem test_decode_f50_f62 : reads
    [(0o50377777, .eni 3 0o77777), (0o51200005, .ini 2 5), (0o52300400, .liu 3 0o400), (0o53100400, .lil 1 0o400),
      (0o54100003, .isk 1 3), (0o55100101, .ijp 1 0o101), (0o56200500, .siu 2 0o500), (0o57100500, .sil 1 0o500),
      (0o60000600, .sau 0 0o600), (0o61000600, .sal 0 0o600), (0o62777777, .illegal62 0o777777)] = true := by decide
theorem test_decode_f64_f73 : reads
    [(0o64200600, .eqs 2 0o600), (0o65200600, .ths 2 0o600), (0o66200600, .meq 2 0o600), (0o67200600, .mth 2 0o600),
      (0o70000200, .rad 0 0o200), (0o71000200, .rsb 0 0o200), (0o72000200, .rao 0 0o200), (0o73000200, .rso 0 0o200)]
    = true := by decide
theorem test_decode_f75_f76 : reads
    [(0o75000400, .slj 0o400), (0o75100400, .sj1 0o400), (0o75200400, .sj2 0o400), (0o75300400, .sj3 0o400),
      (0o75400300, .rtj 0o300), (0o75500300, .rj1 0o300), (0o75600300, .rj2 0o300), (0o75700300, .rj3 0o300),
      (0o76000102, .sls 0o102), (0o76100102, .ss1 0o102), (0o76200102, .ss2 0o102), (0o76300102, .ss3 0o102),
      (0o76400102, .srj 0o102), (0o76500102, .sr1 0o102), (0o76600102, .sr2 0o102), (0o76700102, .sr3 0o102)]
    = true := by decide
theorem test_decode_f77 : reads
    [(0o77000432, .inf 0o432), (0o77112345, .aug 0o12345), (0o77200000, .cis), (0o77200001, .cms),
      (0o77200002, .undefined772 2), (0o77300031, .sen 0o31), (0o77400000, .cpr), (0o77400001, .undefined774 1),
      (0o77540000, .eub 0o40000), (0o77601000, .elb 0o1000), (0o77700000, .illegal777 0)] = true := by decide
theorem test_decode_f63 : readsWord
    [(0o6303000650000700, .ldch 0 3 0o700), (0o6323000650000700, .ldch 2 3 0o700),
      (0o6304000650500701, .stch 0 4 0o701), (0o6300000000100400, .ubjp 1 0o400),
      (0o6300000001100400, .brtj 1 0o400), (0o6300000002100400, .bjpl 1 0o400),
      (0o6303000650100700, .illegal63 0o03000650100700)] = true := by decide
theorem test_decode_f74 : readsWord
    [(0o7400000000000000 + 0o300 * 2 ^ 14 + 0o3001 * 2 ^ 2 + 1, .conn 1 0o3001 0o300),
      (0o7410000000000000 + 0o300 * 2 ^ 14 + 0o0004 * 2 ^ 2 + 2, .extf 2 0o0004 0o300),
      (0o7420000000000000 + 0o301 * 2 ^ 17 + 0o500 * 2 ^ 2 + 3, .begr 3 0o500 0o301),
      (0o7430000000000000 + 0o301 * 2 ^ 17 + 0o500 * 2 ^ 2 + 0, .begw 0 0o500 0o301),
      (0o7440000000000002, .copy 2), (0o7450000000000001, .clch 1),
      (0o7460000000000000 + 0o77777 * 2 ^ 2 + 3, .ccwd 3 0o77777), (0o7470000000000005, .illegal747 (.word 5))]
    = true := by decide
theorem test_decode_lower_63 : decode Layouts.atReset .lower 0o1200020063000000 = .refused .fortyEightBitCodeInLowerHalf :=
  by decide
/-- R102, R442: 74.7 in the lower half of a word of two 24-bit instructions is an illegal code. -/
theorem test_decode_lower_747 : decode Layouts.atReset .lower 0o1200020074700005 = .instr (.illegal747 (.half 5)) := by
  decide
/-- R112: the lower half of a 74.4 word, of 74.7, and of a bank jump; R97 item 1 makes each of them one 48-bit word. -/
theorem test_decode_lower_of_48 : [0o7440000012000200, 0o7470000012000200, 0o6300000012000200].all (fun w =>
    decode Layouts.atReset .lower w = .refused .fortyEightBitCodeInLowerHalf) = true := by decide
theorem test_decode_lower_character : decode Layouts.atReset .lower 0o6303000650500701 = .instr (.eni 5 0o701) := by
  decide
theorem test_decode_table_word : decodeTableWord 24 0o12000200 = some (.lda 0 0o200) := by decide
theorem test_fetch_word :
    got (step (State.reset.withFetchWord 24 0o10037777)) (fun t => (t.a, t.p, t.half)) = some (0o37777, 0, .lower) := by
  decide +kernel

/-! ## Numbers (95_test_vectors 2.1) -/

theorem test_add15 : (add15 0o77776 1, add15 0o77777 0, add15 0 0o77777, add15 0o77777 0o77777, add15 5 0o77776)
    = (0, 0, 0, 0o77777, 4) := by decide
theorem test_add48 : (add48 5 0o7777777777777772, add48 minus0 minus0, add48 minus0 0, sub48 5 7, sub48 minus0 0,
    sub48 0 0, sub48 minus0 minus0) = (0, minus0, 0, 0o7777777777777775, minus0, 0, 0) := by decide
theorem test_sext15 : (sext15 0o40000, sext15 0o37777, sext15 0o77777) = (0o7777777777740000, 0o37777, minus0) := by
  decide

/-! ## Transmission (2.2, 2.3) -/

theorem test_iaq : got (exec .iaq { start [] with a := 5, q := minus0 }) aq = some (minus0, 5) := by decide +kernel
theorem test_ati : got (exec (.ati 2) { start [] with a := 0o7777777777712345 }) (·.index.b2) = some 0o12345 := by
  decide +kernel
theorem test_lda_indexed :
    got (exec (.lda 1 0o200) ((start [(0o177, 0o123)]).setB 1 0o77776)) (·.a) = some 0o123 := by decide +kernel
theorem test_lda_top : got (exec (.lda 0 0o77777) (start [(0o77777, 7)])) (·.a) = some 7 := by decide +kernel
theorem test_lac : got (exec (.lac 0 0o200) (start [])) (·.a) = some minus0 := by decide +kernel
theorem test_ldq : got (exec (.ldq 0 0o200) (start [(0o200, minus0)])) aq = some (0, minus0) := by decide +kernel
theorem test_lqc : got (exec (.lqc 0 0o200) (start [(0o200, 5)])) (·.q) = some 0o7777777777777772 := by decide +kernel
theorem test_sta : got (exec (.sta 0 0o301) { start [] with a := 0o4000000000000000 }) (at_ 0o301)
    = some 0o4000000000000000 := by decide +kernel
theorem test_stq : got (exec (.stq 1 0o300) ({ start [] with q := minus0 }.setB 1 2)) (at_ 0o302) = some minus0 := by
  decide +kernel
theorem test_liu : got (exec (.liu 3 0o400) (start [(0o400, 0o7500123400000000)])) (·.index.b3) = some 0o1234 := by
  decide +kernel
theorem test_lil : got (exec (.lil 1 0o400) (start [(0o400, 0o77777)])) (·.index.b1) = some 0o77777 := by
  decide +kernel
theorem test_siu : got (exec (.siu 2 0o500) ((start [(0o500, 0o1277777714100210)]).setB 2 0o300)) (at_ 0o500)
    = some 0o1270030014100210 := by decide +kernel
theorem test_siu_zero : got (exec (.siu 0 0o500) (start [(0o500, 0o1277777714100210)])) (at_ 0o500)
    = some 0o1270000014100210 := by decide +kernel
theorem test_sil : got (exec (.sil 1 0o500) ((start [(0o500, 0o1200020014177777)]).setB 1 1)) (at_ 0o500)
    = some 0o1200020014100001 := by decide +kernel
theorem test_sau : got (exec (.sau 0 0o600) { start [(0o600, 0o7500000000000000)] with a := 0o777 }) (at_ 0o600)
    = some 0o7500077700000000 := by decide +kernel
theorem test_sal : got (exec (.sal 0 0o600) { start [(0o600, 0o1200020014100210)] with a := 0o7777777777700123 })
    (at_ 0o600) = some 0o1200020014100123 := by decide +kernel
theorem test_enq : got (exec (.enq 0 0o77776) (start [])) (·.q) = some 0o7777777777777776 := by decide +kernel
theorem test_ena : got (exec (.ena 1 0o77777) (start [])) (·.a) = some 0 := by decide +kernel
theorem test_ena_negative : got (exec (.ena 0 0o40000) (start [])) (·.a) = some 0o7777777777740000 := by decide +kernel
theorem test_eni : got (exec (.eni 3 0o77777) (start [])) (·.index) = some { State.reset.index with b3 := 0o77777 } := by
  decide +kernel
theorem test_eni_zero : got (exec (.eni 0 5) (start [])) (·.index) = some State.reset.index := by decide +kernel

/-- One indirect level: the low 18 bits of the word at 00300 go into U. -/
theorem test_indirect :
    got (exec (.lda 7 0o300) { start [(0o300, 0o7777777777200400)] with u := 0o1270030014100210 })
      (fun t => (t.u, place t)) = some (0o1220040014100210, 0o100, .upper) := by decide +kernel

/-! ## Fixed point (2.4) -/

theorem test_add : got (exec (.add 0 0o310) { start [(0o310, 1)] with a := 0o3777777777777777 })
    (fun t => (t.a, t.irff)) = some (0o4000000000000000, bit48 3) := by decide +kernel
theorem test_sub : got (exec (.sub 0 0o310) { start [(0o310, 7)] with a := 5 })
    (fun t => (t.a, t.irff)) = some (0o7777777777777775, 0) := by decide +kernel
theorem test_mui : got (exec (.mui 0 0o200) { start [(0o200, 7)] with a := 0o7777777777777771, q := 0o123 }) aq
    = some (0o7777777777777725, minus0) := by decide +kernel
theorem test_mui_max : got (exec (.mui 0 0o200)
    { start [(0o200, 0o3777777777777777)] with a := 0o3777777777777777 }) aq = some (1, 0o1777777777777777) := by
  decide +kernel
theorem test_dvi : got (exec (.dvi 0 0o200) { start [(0o200, 5)] with q := minus0, a := 0o7777777777777756 }) aq
    = some (0o7777777777777774, 0o7777777777777775) := by decide +kernel
theorem test_dvi_fault : got (exec (.dvi 0 0o200) { start [(0o200, 1)] with q := 1 }) (fun t => (t.irff, place t))
    = some (bit48 2, 0o100, .lower) := by decide +kernel
theorem test_ina : got (exec (.ina 0 0o77776) { start [] with a := 5 }) (·.a) = some 4 := by decide +kernel
theorem test_ini : got (exec (.ini 2 1) ((start []).setB 2 0o77776)) (·.index.b2) = some 0 := by decide +kernel
theorem test_isk_wrap : got (exec (.isk 1 0) ((start []).setB 1 0o77777)) (fun t => (t.index.b1, place t))
    = some (0, 0o100, .lower) := by decide +kernel
theorem test_isk_skip : got (exec (.isk 1 3) ((start []).setB 1 3)) (fun t => (t.index.b1, place t))
    = some (0, 0o101, .upper) := by decide +kernel

/-! ## Floating point (2.12) -/

theorem test_fad : got (exec (.fad 0 0o200) { start [(0o200, 0o2003400000000000)] with a := 0o2003400000000000 })
    (fun t => (t.a, t.q, t.irff)) = some (0o2004400000000000, 0, 0) := by decide +kernel
/-- R220 item 5: 2 + (-(2^35 + 1)/2^36) loses a quarter of the last place, and only the rounding quantity 0 is close. -/
theorem test_fad_close : [-1, 0, 1].map (fadClose (unpack 0o2002400000000000) (unpack (~~~0o2000400000000001)) 2)
    = [false, true, false] := by decide +kernel
theorem test_fsb : got (exec (.fsb 0 0o200) { start [(0o200, 0o2003400000000000)] with a := 0o2003600000000000 })
    (·.a) = some 0o2002400000000000 := by decide +kernel
theorem test_fmu : got (exec (.fmu 0 0o200) { start [(0o200, 0o2000400000000000)] with a := 0o5774377777777777 })
    (·.a) = some 0o5775377777777777 := by decide +kernel
theorem test_fmu_underflow : got (exec (.fmu 0 0o200)
    { start [(0o200, 0o1776400000000000)] with a := 0o0000400000000000, q := 5 })
    (fun t => (t.a, t.q, t.irff)) = some (0, 0, bit48 5) := by decide +kernel
theorem test_fdv : got (exec (.fdv 0 0o200) { start [(0o200, 0o2002400000000000)] with a := 0o2003400000000000 })
    (·.a) = some 0o2002400000000000 := by decide +kernel
theorem test_fdv_zero : got (exec (.fdv 0 0o200) { start [] with a := 0o2003400000000000 }) (·.irff)
    = some (bit48 2) := by decide +kernel
theorem test_category_two : got (exec (.fmu 0 0o500)
    { start [(0o32, 0o7500000012000400)] with config := { Config.atReset with floatingOption := false }, p := 0o300 })
    (fun t => (at_ 0o32 t, t.exit2, t.mode2, place t)) = some (0o7500030012000400, .upper, true, 0o32, .lower) := by
  decide +kernel

/-! ## Logical, shift, scale (2.6, 2.7) -/

theorem test_sst : got (exec (.sst 0 0o200) { start [(0o200, 0o707)] with a := 0o1234 }) (·.a) = some 0o1737 := by
  decide +kernel
theorem test_scl : got (exec (.scl 0 0o200) { start [(0o200, 0o707)] with a := 0o1234 }) (·.a) = some 0o1030 := by
  decide +kernel
theorem test_scm : got (exec (.scm 0 0o200) { start [(0o200, 0o707)] with a := 0o1234 }) (·.a) = some 0o1533 := by
  decide +kernel
theorem test_ssu : got (exec (.ssu 0 0o200) { start [(0o200, 0o5656)] with a := 0o1234, q := 0o770 }) (·.a)
    = some 0o1654 := by decide +kernel
theorem test_ldl : got (exec (.ldl 0 0o200) { start [(0o200, 0o5656)] with q := 0o770 }) (·.a) = some 0o650 := by
  decide +kernel
theorem test_adl : got (exec (.adl 0 0o200) { start [(0o200, 1)] with a := 0o3777777777777777, q := minus0 })
    (fun t => (t.a, t.irff)) = some (0o4000000000000000, bit48 3) := by decide +kernel
theorem test_sbl : got (exec (.sbl 0 0o200) { start [(0o200, 0o5656)] with a := 0o1000, q := 0o770 }) (·.a)
    = some 0o130 := by decide +kernel
theorem test_stl : got (exec (.stl 0 0o200) { start [] with a := 0o1234, q := 0o770 })
    (fun t => (at_ 0o200 t, aq t)) = some (0o230, 0o1234, 0o770) := by decide +kernel
theorem test_ars : got (exec (.ars 0 1) { start [] with a := 0o7777777777777772 }) (·.a) = some 0o7777777777777775 := by
  decide +kernel
theorem test_ars_fault : got (exec (.ars 1 0o57) ({ start [] with a := 0o123 }.setB 1 2)) (fun t => (t.a, t.irff))
    = some (0o123, bit48 1) := by decide +kernel
theorem test_qrs : got (exec (.qrs 0 4) { start [] with q := 0o7777777777777600 }) (·.q) = some 0o7777777777777770 := by
  decide +kernel
theorem test_lrs : got (exec (.lrs 0 1) { start [] with a := 3 }) aq = some (1, 0o4000000000000000) := by
  decide +kernel
theorem test_lrs_48 : got (exec (.lrs 0 48) { start [] with a := 0o4000000000000005, q := 0o123 }) aq
    = some (minus0, 0o4000000000000005) := by decide +kernel
theorem test_als : got (exec (.als 0 1) { start [] with a := 0o4000000000000001 }) (·.a) = some 3 := by decide +kernel
theorem test_qls : got (exec (.qls 0 6) { start [] with q := 0o7700000000000001 }) (·.q) = some 0o177 := by
  decide +kernel
theorem test_lls : got (exec (.lls 0 1) { start [] with a := 0o4000000000000000, q := 0o4000000000000001 }) aq
    = some (1, 3) := by decide +kernel
theorem test_sca : got (exec (.sca 2 0o60) { start [] with a := 0o7777777777777776 }) (fun t => (t.a, t.index.b2))
    = some (0o5777777777777777, 2) := by decide +kernel
theorem test_sca_short : got (exec (.sca 1 0o203) { start [] with a := 1 }) (fun t => (t.a, t.index.b1))
    = some (0o10, 0o200) := by decide +kernel
theorem test_scq : got (exec (.scq 1 0o177) { start [] with q := 1 }) (fun t => (aq t, t.index.b1))
    = some ((0o2000000000000000, 0), 0o41) := by decide +kernel

/-! ## Replace, storage tests, searches (2.5, 2.8, 2.9) -/

theorem test_rad : got (exec (.rad 0 0o200) { start [(0o200, 4)] with a := 3 }) (fun t => (t.a, at_ 0o200 t))
    = some (7, 7) := by decide +kernel
theorem test_rsb : got (exec (.rsb 0 0o200) { start [(0o200, 0o12)] with a := 3 }) (fun t => (t.a, at_ 0o200 t))
    = some (7, 7) := by decide +kernel
theorem test_rao : got (exec (.rao 0 0o200) (start [(0o200, 0o3777777777777777)]))
    (fun t => (t.a, at_ 0o200 t, t.irff)) = some (0o4000000000000000, 0o4000000000000000, bit48 3) := by decide +kernel
theorem test_rso : got (exec (.rso 0 0o200) (start [])) (fun t => (t.a, at_ 0o200 t))
    = some (0o7777777777777776, 0o7777777777777776) := by decide +kernel
theorem test_ssk : got (exec (.ssk 0 0o200) (start [(0o200, minus0)])) place = some (0o101, .upper) := by decide +kernel
theorem test_ssk_lower : got (exec (.ssk 0 0o200) { start [(0o200, 1)] with half := .lower }) place
    = some (0o101, .upper) := by decide +kernel
theorem test_ssh : got (exec (.ssh 0 0o200) (start [(0o200, 0o4000000000000001)])) (fun t => (at_ 0o200 t, place t))
    = some (3, 0o101, .upper) := by decide +kernel
theorem test_ssh_stay : got (exec (.ssh 0 0o200) (start [(0o200, 0o2000000000000001)]))
    (fun t => (at_ 0o200 t, place t)) = some (0o4000000000000002, 0o100, .lower) := by decide +kernel
theorem test_eqs : got (repeatExec (.eqs 2 0o600) 2
    ({ start [(0o602, 0o30), (0o603, 0o40), (0o604, 0o50)] with a := 0o40 }.setB 2 5))
    (fun t => (t.index.b2, place t)) = some (3, 0o101, .upper) := by decide +kernel
theorem test_eqs_top : got (exec (.eqs 2 0) ({ start [(0o77776, 9)] with a := 9 }.setB 2 0o77777))
    (fun t => (t.index.b2, place t)) = some (0o77776, 0o101, .upper) := by decide +kernel
theorem test_ths : got (exec (.ths 0 0o600) { start [] with a := minus0 }) place = some (0o101, .upper) := by
  decide +kernel
theorem test_ths_zero : got (exec (.ths 0 0o600) (start [(0o600, minus0)])) place = some (0o100, .lower) := by
  decide +kernel
theorem test_meq : got (exec (.meq 2 0o600) ({ start [(0o603, 0o4040)] with q := 0o77, a := 0o40 }.setB 2 4))
    (fun t => (t.index.b2, place t)) = some (3, 0o101, .upper) := by decide +kernel
theorem test_mth : got (exec (.mth 2 0o600) ({ start [(0o604, 0o5050)] with q := 0o77, a := 0o40 }.setB 2 5))
    (fun t => (t.index.b2, place t)) = some (4, 0o101, .upper) := by decide +kernel

/-! ## Jumps and stops (2.10) -/

theorem test_ajp : got (exec (.ajp 0 0o400) { start [] with a := minus0 }) place = some (0o400, .upper) := by
  decide +kernel
theorem test_ajp_positive : got (exec (.ajp 2 0o400) { start [] with a := minus0 }) place = some (0o100, .lower) := by
  decide +kernel
theorem test_qjp : got (exec (.qjp 3 0o400) { start [] with q := minus0 }) place = some (0o400, .upper) := by
  decide +kernel
theorem test_arj : got (exec (.arj 3 0o300)
    { start [(0o300, 0o7500000005000001)] with a := 0o7777777777777776 }) (fun t => (at_ 0o300 t, place t))
    = some (0o7500010105000001, 0o300, .lower) := by decide +kernel
theorem test_qrj : got (exec (.qrj 1 0o300) (start [(0o300, 5)])) (fun t => (at_ 0o300 t, place t))
    = some (5, 0o100, .lower) := by decide +kernel
theorem test_ijp : got (exec (.ijp 1 0o101) ((start []).setB 1 0o77777)) (fun t => (t.index.b1, place t))
    = some (0o77776, 0o101, .upper) := by decide +kernel
theorem test_slj : got (exec (.slj 0o400) { start [] with half := .lower }) place = some (0o400, .upper) := by
  decide +kernel

/-- A machine with Jump and Stop switch 2 on and Maintenance Mode on. -/
def switched : State := { start [] with console := { Console.reset with jump2 := true, stop2 := true, maintenance := true } }

theorem test_sj1 : got (exec (.sj1 0o400) switched) place = some (0o100, .lower) := by decide +kernel
theorem test_sj2 : got (exec (.sj2 0o400) switched) place = some (0o400, .upper) := by decide +kernel
theorem test_sj3 : got (exec (.sj3 0o400) switched) place = some (0o100, .lower) := by decide +kernel
theorem test_rtj_wrap : got (exec (.rtj 0o300) { start [(0o300, 0o7501234505000001)] with p := 0o77777, half := .lower })
    (fun t => (at_ 0o300 t, place t)) = some (0o7500000005000001, 0o300, .lower) := by decide +kernel
theorem test_rj1 : got (exec (.rj1 0o300) switched) place = some (0o100, .lower) := by decide +kernel
theorem test_rj2 : got (exec (.rj2 0o300) switched) place = some (0o300, .lower) := by decide +kernel
theorem test_rj3 : got (exec (.rj3 0o300) switched) place = some (0o100, .lower) := by decide +kernel
theorem test_sls_stops : got (exec (.sls 0o102) (start [])) (fun t => (t.running, place t)) = some (false, 0o100, .upper) :=
  by decide +kernel
theorem test_sls_goes : got (exec (.sls 0o102) { start [] with slsStopped := true }) (fun t => (t.running, place t))
    = some (true, 0o102, .upper) := by decide +kernel
theorem test_ss1 : got (exec (.ss1 0o102) switched) place = some (0o102, .upper) := by decide +kernel
theorem test_ss2 : got (exec (.ss2 0o102) switched) (·.running) = some false := by decide +kernel
theorem test_ss3 : got (exec (.ss3 0o102) switched) place = some (0o102, .upper) := by decide +kernel
theorem test_srj : got (exec (.srj 0o102) (start [])) (fun t => (t.running, at_ 0o102 t)) = some (false, 0) := by
  decide +kernel
theorem test_sr1 : got (exec (.sr1 0o102) switched) (fun t => (place t, at_ 0o102 t))
    = some ((0o102, .lower), 0o0000010100000000) := by decide +kernel
theorem test_sr2 : got (exec (.sr2 0o102) switched) (·.running) = some false := by decide +kernel
theorem test_sr3 : got (exec (.sr3 0o102) switched) place = some (0o102, .lower) := by decide +kernel
theorem test_ubjp : got (exec (.ubjp 1 0o400) ((start []).setB 1 0o10)) place = some (0o410, .upper) := by decide +kernel
theorem test_bjpl : got (exec (.bjpl 1 0o400) ((start []).setB 1 0o10)) place = some (0o410, .lower) := by decide +kernel

/-- R322: the stored word is UBJP 0,00101 and execution goes on at 00411. -/
theorem test_brtj : got (exec (.brtj 1 0o400) ((start []).setB 1 0o10))
    (fun t => (place t, decode Layouts.atReset .upper (at_ 0o410 t)))
    = some ((0o411, .upper), .instr (.ubjp 0 0o101)) := by decide +kernel

/-! ## Characters, Augment, bounds (2.11) -/

theorem test_ldch : got (exec (.ldch 0 3 0o700) ((start [(0o700, 0o0102030405060710)]).setB 3 0o36))
    (fun t => (t.a, place t)) = some (3, 0o101, .upper) := by decide +kernel
theorem test_ldch_illegal : got (exec (.ldch 0 3 0o700) ((start [(0o20, 0o7500000050000000)]).setB 3 0o35))
    (fun t => (t.a, at_ 0o20 t, t.exit3, t.mode3, place t))
    = some (0, 0o7500010050000000, .upper, true, 0o20, .lower) := by decide +kernel
theorem test_stch : got (exec (.stch 0 3 0o700) ({ start [(0o700, minus0)] with a := 0o65 }.setB 3 6)) (at_ 0o700)
    = some 0o7777777777776577 := by decide +kernel
theorem test_stch_top : got (exec (.stch 0 3 0o700) ({ start [] with a := 0o7777777777777765 }.setB 3 0o52)) (at_ 0o700)
    = some 0o6500000000000000 := by decide +kernel

/-- AUG with v = 2 over `LDA 1,00100`. -/
theorem test_aug : got (exec (.aug 0o20) ({ start [] with u := 0o7710002012100100 }.setB 2 0o200))
    (fun t => (t.u, t.augPending, place t)) = some (0o7710002012100300, true, 0o100, .lower) := by decide +kernel
theorem test_aug_magnitude : got (exec (.lda 0 0o200)
    { start [(0o200, 0o7777777777777772)] with
      half := .lower, augPending := true, augT := { t2 := true, t1 := false, t0 := false } })
    (fun t => (t.a, t.augPending)) = some (5, false) := by decide +kernel
theorem test_eub : got (exec (.eub 0o40177) (start [])) (·.bu) = some 0o200 := by decide +kernel
theorem test_eub_illegal : got (exec (.eub 0o40000) (bounded (start []))) (fun t => (t.bu, place t))
    = some (8, 0o20, .lower) := by decide +kernel
theorem test_elb : got (exec (.elb 0o1000) (start [])) (·.bl) = some 4 := by decide +kernel
theorem test_bounds : (bounded (start [])).inBounds 0o777 = false ∧ (bounded (start [])).inBounds 0o1000 = true
    ∧ (bounded (start [])).inBounds 0o1777 = true ∧ (bounded (start [])).inBounds 0o2000 = false := by decide +kernel
theorem test_bounds_fault : got (exec (.sta 0 0o777) { bounded (start []) with a := 9, half := .lower })
    (fun t => (at_ 0o777 t, t.irff, t.exit1, t.mode1, at_ 7 t))
    = some (0, bit48 42, .lower, true, 0o0000010000000000) := by decide +kernel

/-! ## Internal functions, sense, copies (2.13) -/

theorem test_inf_system : got (exec (.inf 0o602) { start [] with irff := minus0, mask := minus0, intActive := true })
    (fun t => (t.irff, t.mask, t.intActive)) = some (0o0000170074000000, 0o0000170074000000, false) := by decide +kernel
theorem test_inf_locked : got (exec (.inf 0o611) { start [] with lockout := true, intActive := true, p := 0o150 })
    (fun t => (t.lockout, at_ 0o20 t, place t)) = some (true, 0o0000015000000000, 0o20, .lower) := by decide +kernel
theorem test_inf_undefined : stopped (exec (.inf 0o607) (start [])) = some .undefinedInternalFunction := by decide +kernel
theorem test_sen : got (exec (.sen 0) (start [])) place = some (0o101, .upper) := by decide +kernel
theorem test_sen_stay : got (exec (.sen 0o121) { start [] with exit2 := .lower }) place = some (0o100, .lower) := by
  decide +kernel
theorem test_cis : got (exec .cis { start [] with
    irff := bit48 3 ||| bit48 45 ||| bit48 8
    channels := { State.reset.channels with c1 := { Channel.reset with parErr := true } } }) (·.a)
    = some 0o1000000010000010 := by decide +kernel
theorem test_cms : got (exec .cms { start [] with mask := bit48 3 ||| bit48 42 }) (·.a) = some 0o0100000000000010 := by
  decide +kernel
theorem test_cpr : got (exec .cpr { start [] with mask := bit48 3 ||| bit48 42, irff := bit48 2 ||| bit48 3 }) (·.a)
    = some 0o10 := by decide +kernel
theorem test_undefined772 : stopped (exec (.undefined772 2) (start [])) = some .undefinedCopyCode := by decide +kernel
theorem test_undefined774 : stopped (exec (.undefined774 1) (start [])) = some .undefinedProductCode := by decide +kernel

/-- R442: an illegal instruction in the lower half of 00200. -/
theorem test_illegal : [Instr.illegal00 0, .illegal26 0, .illegal27 0, .illegal62 0, .illegal63 0, .illegal747 (.word 0),
    .illegal777 0].all (fun i =>
      got (exec i { start [(0o20, 0o7500000075000020)] with p := 0o200, half := .lower })
        (fun t => (at_ 0o20 t, t.exit3, t.mode3, place t)) = some (0o7500020075000020, .lower, true, 0o20, .lower))
    = true := by decide +kernel

/-! ## Input and output (2.15) -/

/-- Channel 1 with a tape connected, active, two words to go. -/
def reading : State := (start []).setChannel 1
  { Channel.reset with
    active := true, addr := 0o2000, count := 2, held := 3, assembly := 0o1111222233330000
    conn := some { equipment := 2, unit := 0 } }

theorem test_conn : got (exec (.conn 1 0o3001 0o300) { start [] with answers := [.reply] })
    (fun t => (t.channels.c1.conn, place t)) = some (some { equipment := 3, unit := 1 }, 0o101, .upper) := by
  decide +kernel
theorem test_conn_rejected : got (exec (.conn 1 0o3001 0o300) (start [])) (fun t => (t.channels.c1.conn, place t))
    = some (none, 0o300, .upper) := by decide +kernel
theorem test_extf : got (exec (.extf 1 4 0o300) (start [])) place = some (0o300, .upper) := by decide +kernel
theorem test_begr_busy : got (exec (.begr 1 0o500 0o300) reading) (fun t => (t.channels, place t))
    = some (reading.channels, 0o300, .upper) := by decide +kernel
theorem test_begw : got (exec (.begw 1 0o500 0o300) (start [(0o500, 0o0000000277777777)]))
    (fun t => (t.channels.c1.active, t.channels.c1.dir, t.channels.c1.addr, t.channels.c1.count, place t))
    = some (true, .write, 0o77777, 2, 0o101, .upper) := by decide +kernel
theorem test_copy : got (exec (.copy 1) ((start []).setChannel 1
    { Channel.reset with
      addr := 0o2003, count := 5, lines := 8, status := 3, conn := some { equipment := 3, unit := 0 } })) aq
    = some (0o0000000500002003, 0o0000001000000003) := by decide +kernel
theorem test_clch : got (exec (.clch 1) (reading.setChannel 1 { reading.channel 1 with active := false }))
    (fun t => (t.channels.c1, place t)) = some (Channel.reset, 0o101, .upper) := by decide +kernel
theorem test_ccwd_waits : got (exec (.ccwd 1 0o300) { reading with a := 0o0000000100004000 })
    (fun t => (t.ccwdWait, place t)) = some (some 1, 0o100, .upper) := by decide +kernel
theorem test_ccwd_rejected : got (exec (.ccwd 1 0o300) reading) place = some (0o300, .upper) := by decide +kernel
theorem test_byte_in : got ((Async.byteIn 1 0o4444 false false false).perform reading)
    (fun t => (at_ 0o2000 t, t.channels.c1.addr, t.channels.c1.count, t.channels.c1.active))
    = some (0o1111222233334444, 0o2001, 1, true) := by decide +kernel
theorem test_end_of_record : got ((Async.endOfRecord 1).perform (reading.setChannel 1
    { reading.channel 1 with held := 1, assembly := 0o5555000000000000, count := 1 }))
    (fun t => (at_ 0o2000 t, t.channels.c1.addr, t.channels.c1.count, t.channels.c1.active, t.irff))
    = some (0o5555000000000000, 0o2001, 0, false, bit48 11) := by decide +kernel

/-- R388, R391: with nothing connected no byte comes. -/
theorem test_byte_unconnected : got ((Async.byteIn 1 0o4444 false false false).perform
    (reading.setChannel 1 { reading.channel 1 with conn := none })) (fun t => (at_ 0o2000 t, t.channels.c1.held))
    = some (0, 3) := by decide +kernel

/-- The typewriter on channel 0 at work in one direction, with a word to go at 00400. -/
def typing (d : Direction) (held : BitVec 3) (assembly : Word) : State := (start []).setChannel 0
  { Channel.reset with
    active := true, dir := d, addr := 0o400, count := 2, held := held, assembly := assembly, stepped := true
    conn := some { equipment := 3, unit := 0 } }

/-- R407: a key code goes to bits 5..0 of one word. -/
theorem test_key : got ((Async.key 0o12 false false).perform (typing .read 0 0))
    (fun t => (at_ 0o400 t, t.channels.c0.addr, t.channels.c0.count)) = some (0o12, 0o401, 1) := by decide +kernel

/-- R406, Table 7-3: upper case, then the code of 1, which types its upper case character. -/
theorem test_type : got ((Async.byteOut 0 false false).perform (typing .write 2 0o64770000))
    (fun t => (t.typewriter.output, t.typewriter.upper, t.channels.c0.held))
    = some ([(0o64, .upperCase), (0o77, .char '±')], true, 1) := by decide +kernel

/-- R405: a carriage return struck as a key ends End of Line. -/
theorem test_carriage_return : (({ Typewriter.reset with endOfLine := true } : Typewriter).strike 0o63).endOfLine = false :=
  by decide

/-- R471: Stop in the middle of a search waits for its end; between two instructions it acts at once. -/
theorem test_stop : ({ start [] with progress := .search } : State).requestStop.running = true
    ∧ ({ start [] with progress := .search } : State).requestStop.next24.running = false
    ∧ (start []).requestStop.running = false := by decide +kernel

/-- A stopped machine, Maintenance Mode on. -/
def bench : State :=
  { start [] with running := false, slsStopped := true, console := { Console.reset with maintenance := true } }

/-- R46, R310: another word put into U is another instruction, so its SLS stops. -/
theorem test_panel_u : got ((Move.panelWrite .u 0).perform bench) (·.slsStopped) = some false := by decide +kernel

/-- R46: an SLS that is fetched is another instruction, so it stops. -/
theorem test_sls_fetched : got (step { start [(0o100, 0o7600010250000000)] with needRni := true, slsStopped := true })
    (fun t => (t.running, t.slsStopped, place t)) = some (false, true, 0o100, .upper) := by decide +kernel

/-- R473, R392: in Step Mode the stop waits for the end of CCWD's wait and the read of the next word. -/
theorem test_step_ccwd : got (({ reading with u := 0o7460000000001201, a := 0o0000000100000000, console :=
    { Console.reset with stepMode := true } } : State).execute) (fun t => (t.ccwdWait, t.running)) = some (some 1, true)
    := by decide +kernel
theorem test_step_ccwd_end : (({ reading with ccwdWait := some 1, console :=
    { Console.reset with stepMode := true } } : State).endWait).readsOnly = true := by decide +kernel

/-- R402, R495: an Auto-Load whose Function code is rejected stays: no byte comes. -/
theorem test_autoLoad_rejected : got (({ bench with answers := [.reply, .reject], console :=
    { bench.console with autoChannel := 1, autoConnect := 0o2000 } } : State).startAutoLoad)
    (fun t => (t.channels.c1.active, t.channels.c1.halted, t.autoLoad)) = some (true, true, some 1) := by decide +kernel

/-- R484: Off drops a Restart that waits, and does nothing to a system that is already off. -/
theorem test_system_off : ({ start [] with systemActive := true, restartRequest := true, progress := .search } :
    State).setSystemActive false = { start [] with systemActive := false, stopRequest := true, progress := .search }
    := by decide +kernel

/-! ## Interrupts, exits, stops (2.14) -/

theorem test_category_one : got (step { start [(7, 0o7500000012000400)] with
    p := 0o101, half := .lower, intActive := true, mask := bit48 3, irff := bit48 3 })
    (fun t => (at_ 7 t, t.exit1, t.mode1, place t)) = some (0o7500010112000400, .lower, true, 7, .lower) := by
  decide +kernel
/-- R58, R481: an External Clear leaves a running computer running, also while Auto-Load waits. -/
theorem test_external_clear_running : ({ start [] with autoLoad := some 1 } : State).externalClearSwitch.running = true
    ∧ ({ start [] with autoLoad := some 1 } : State).externalClearSwitch.autoLoad = none := by
  unfold State.externalClearSwitch
  simp only [show ({ start [] with autoLoad := some 1 } : State).externalClear.autoLoad.isSome = true by rfl, if_true]
  split <;> exact ⟨by rfl, by rfl⟩
/-- R79, R440: a store falls between the fetch of a trapped instruction and its entry, another between the entry's store
and its read: the first loses its upper address to the entry, the second stands. -/
theorem test_entry_slots : got (exec (.illegal26 0) { start [] with
      slots := [[.corrupt 0o20 0o7777777777777777], [.corrupt 0o21 5]] })
    (fun t => (at_ 0o20 t, at_ 0o21 t, t.u)) = some (0o7770010077777777, 5, 0o7770010077777777) := by decide +kernel
theorem test_entry_slots_between : got (exec (.illegal26 0) { start [] with slots := [[], [.corrupt 0o20 3]] })
    (fun t => (at_ 0o20 t, t.u)) = some (3, 3) := by decide +kernel
theorem test_exit : got (exec (.slj 0o101) { start [] with p := 7, mode1 := true, exit1 := .lower })
    (fun t => (place t, t.mode1)) = some ((0o101, .lower), false) := by decide +kernel

/-! ## Witnesses: states and operands that meet the hypotheses of the statements -/

theorem start_quiet (l : List (Addr × Word)) : (start l).Quiet := ⟨rfl, rfl, rfl, rfl⟩

theorem start_can_read (l : List (Addr × Word)) (b : Desig) (m : Addr) (h : b ≠ 7) : (start l).CanRead b m :=
  ⟨start_quiet l, h, rfl⟩

theorem start_can_store (l : List (Addr × Word)) (b : Desig) (m : Addr) (h : b ≠ 7) : (start l).CanStore b m :=
  ⟨start_can_read l b m h, rfl⟩

theorem start_ready (l : List (Addr × Word)) : (start l).Ready := ⟨rfl, rfl, rfl, rfl, rfl, rfl, rfl⟩

theorem start_can_jump (m : Addr) : (start []).CanJump m := ⟨rfl, Or.inl rfl⟩

/-- At the lower instruction of 00007, as after a Category I entry. -/
def entering : State := { start [] with p := 7, half := .lower }

theorem entering_can_jump (m : Addr) : entering.CanJump m := ⟨rfl, Or.inr ⟨rfl, by decide⟩⟩

theorem start_can_use (x : BitVec 2) : (start []).CanUse x := ⟨rfl, by revert x; decide⟩

/-- The machine waiting to fetch the step of 95_test_vectors 1.1. -/
def fetching : State := { start [(0o100, 0o1200020014100210)] with needRni := true }

theorem witness_AdderSums : overflow48 0o3777777777777776 1 = false ∧ overflow48 0o3777777777777777 1 = true := by decide
theorem witness_DecodeEncode : Layouts.atReset.valid = true ∧ (Instr.ati 6).wf Layouts.atReset = true
    ∧ (Instr.illegal63 0o37777777777777).wf Layouts.atReset = true
    ∧ (Instr.bjpl 7 0o77777).wf Layouts.atReset = true := by decide
theorem witness_EncodeDecode : decode24 0o77777777 = .instr (.illegal777 0o77777) := by decide
theorem witness_StepRunsDecoded_fetch : fetching.Ready ∧ fetching.Quiet ∧ fetching.needRni = true
    ∧ fetching.hasWord fetching.p = true ∧ fetching.outOfBounds fetching.p = false
    ∧ decode fetching.config.layouts fetching.half (Memory.word fetching.memory fetching.p) = .instr (.lda 0 0o200) :=
  ⟨⟨rfl, rfl, rfl, rfl, rfl, rfl, rfl⟩, ⟨rfl, rfl, rfl, rfl⟩, rfl, rfl, rfl, by decide +kernel⟩
theorem witness_StepRunsDecoded_held : (start []).Ready ∧ (start []).Quiet ∧ (start []).needRni = false
    ∧ (start []).resumed = none
    ∧ decode (start []).config.layouts (start []).half (start []).u = .instr (.illegal00 0) :=
  ⟨start_ready [], start_quiet [], rfl, rfl, by decide +kernel⟩

/-- A bank jump after its indirect level. -/
def resuming : State := { start [] with resumed := some (.ubjp 7 0o77777), progress := .indirect 7 0o77777 }

theorem witness_StepRunsDecoded_resumed : resuming.Ready ∧ resuming.Quiet ∧ resuming.needRni = false
    ∧ resuming.resumed = some (.ubjp 7 0o77777) := ⟨⟨rfl, rfl, rfl, rfl, rfl, rfl, rfl⟩, ⟨rfl, rfl, rfl, rfl⟩, rfl, rfl⟩
theorem witness_EndOfInstruction : (start []).console.disableAdvanceP = false ∧ (start []).half = .upper
    ∧ ({ start [] with half := .lower } : State).half = .lower := ⟨rfl, rfl, rfl⟩

/-- A selected overflow interrupt is due, between the two halves of a step. -/
def due : State := { start [] with half := .lower, intActive := true, mask := bit48 3, irff := bit48 3 }

theorem witness_CategoryOneEntry : due.moves = [] ∧ due.running = true ∧ due.ccwdWait = none
    ∧ due.console.sweepMode = false ∧ due.restartRequest = false ∧ due.readsOnly = false ∧ due.badParity = [] ∧ due.intActive = true ∧ due.mode1 = false
    ∧ due.ir &&& due.maskView ≠ 0 := by decide +kernel
theorem witness_InterruptEntryState : Memory.wf (words [(7, 5), (0o77777, 6)]) = true := by decide +kernel

/-- At the upper instruction of a fixed word, in the routine of its category. -/
def leaving (p : Addr) : State :=
  { start [] with p := p, mode1 := true, mode2 := true, mode3 := true,
                  config := { Config.atReset with floatingOption := false } }

theorem witness_InterruptExit : (leaving 7).half = .upper ∧ (leaving 7).outOfBounds 0o77777 = false
    ∧ (leaving 7).p = 7 ∧ (leaving 7).mode1 = true ∧ (leaving 0o20).p = 0o20 ∧ (leaving 0o20).mode3 = true
    ∧ 0o30 ≤ (leaving 0o30).p ∧ (leaving 0o33).p ≤ 0o33 ∧ (leaving 0o33).config.floatingOption = false
    ∧ (leaving 0o33).mode2 = true := by decide +kernel
theorem witness_IndirectLevel : (start []).Quiet ∧ (start []).hasWord 0o77777 = true
    ∧ Instr.rso 7 0o77777 ∈ indirectForms 0o77777 ∧ Instr.fdv 7 0o77777 ∈ floatingForms 7 0o77777
    ∧ (start []).config.floatingOption = true := ⟨start_quiet [], rfl, by decide, by decide, rfl⟩
theorem witness_Addressing : (6 : Desig) ≠ 0 ∧ (6 : Desig) ≠ 7 ∧ (5 : Desig) ≠ 6 := by decide

/-- The first and the last word and the one at 00200 have bad parity. -/
def damaged : State := { start [] with badParity := [0, 0o200, 0o77777] }

theorem witness_OperandParity : damaged.slots = [] ∧ damaged.console.breakSelect = .off ∧ damaged.stopRequest = false
    ∧ damaged.hasWord (damaged.modified 6 0o77777) = true ∧ damaged.modified 6 0o77777 ∈ damaged.badParity
    ∧ Instr.rso 6 0o77777 ∈ operandForms 6 0o77777 ∧ Instr.fdv 6 0o77777 ∈ floatingForms 6 0o77777
    ∧ damaged.config.floatingOption = true ∧ damaged.outOfBounds (damaged.modified 6 0o77777) = false
    ∧ (0o200 : Addr) ∈ damaged.badParity ∧ damaged.hasWord 0o77777 = true
    ∧ (damaged.b 0).toNat ∈ [0, 6, 12, 18, 24, 30, 36, 42] ∧ (damaged.channel 3).active = false
    ∧ damaged.locked = false ∧ damaged.installed 3 = true ∧ (0o77777 : Addr) ∈ damaged.badParity
    ∧ damaged.half = .upper ∧ augV damaged.config.layouts.aug 0o70 = 7 ∧ damaged.hasWord (bits damaged.u 0 15) = true
    ∧ bits damaged.u 0 15 ∈ damaged.badParity := by decide +kernel
theorem witness_OperandParity_search : (damaged.setB 6 1).b 6 ≠ 0 ∧ add15 0o200 ((damaged.setB 6 1).b 6 - 1) = 0o200
    ∧ 0o200 ∈ (damaged.setB 6 1).badParity ∧ (damaged.setB 6 1).slots = [] := by decide +kernel

/-- Channel 3 about to send the last word of storage, which has bad parity. -/
def damagedOut : State := damaged.setChannel 3
  { Channel.reset with active := true, dir := .write, addr := 0o77777, count := 1 }

theorem witness_OperandParity_output : damagedOut.installed 3 = true ∧ (damagedOut.channel 3).active = true
    ∧ (damagedOut.channel 3).dir = .write ∧ (damagedOut.channel 3).halted = false ∧ (damagedOut.channel 3).held = 0
    ∧ (damagedOut.channel 3).count ≠ 0 ∧ damagedOut.hasWord (damagedOut.channel 3).addr = true
    ∧ (damagedOut.channel 3).addr ∈ damagedOut.badParity := by decide +kernel
theorem witness_OperandLoads : (start []).CanRead 0 0o77777 ∧ (start []).CanRead 6 0 ∧ (start []).hasWord 0o77777 = true :=
  ⟨start_can_read _ _ _ (by decide), start_can_read _ _ _ (by decide), rfl⟩
theorem witness_RegisterTransmission : (6 : Desig) ≠ 7 := by decide
theorem witness_Stores : (start []).CanStore 0 0o77777 ∧ (start []).CanStore 6 0 ∧ (start []).hasWord 0 = true
    ∧ (start []).outOfBounds 0 = false :=
  ⟨start_can_store _ _ _ (by decide), start_can_store _ _ _ (by decide), rfl, rfl⟩
theorem witness_StoredBits : Memory.wf (start []).memory = true ∧ (start []).CanStore 0 0o77777
    ∧ (∃ t, exec (.sta 0 0o77777) (start []) = .next t) ∧ (∃ t, exec (.siu 6 0) (start []) = .next t)
    ∧ ∃ t, exec (.sal 0 0o77777) (start []) = .next t :=
  ⟨rfl, start_can_store _ _ _ (by decide), ⟨_, rfl⟩, ⟨_, rfl⟩, ⟨_, rfl⟩⟩
theorem witness_BoundsFaults_store : (bounded (start [])).Quiet
    ∧ (bounded (start [])).outOfBounds ((bounded (start [])).modified 0 0o777) = true
    ∧ (bounded (start [])).outOfBounds ((bounded (start [])).modified 0 0o2000) = true :=
  ⟨⟨rfl, rfl, rfl, rfl⟩, by decide +kernel, by decide +kernel⟩
theorem witness_BoundsFaults_places : (bounded (start [])).outOfBounds 0o2000 = true
    ∧ (bounded (start [])).outOfBounds ((bounded (start [])).modified 6 0o1777) = false
    ∧ (bounded (start [])).outOfBounds ((bounded (start [])).modified 6 0o1777 + 1) = true
    ∧ ((bounded (start [])).b 6).toNat ∈ [0, 6, 12, 18, 24, 30, 36, 42]
    ∧ ((bounded (start [])).console.maintenance && (bounded (start [])).console.stop3) = false
    ∧ ({ bounded (start []) with slsStopped := true } : State).outOfBounds 0o777 = true := by decide +kernel
theorem witness_BoundsFaults_rejects : (bounded reading).Quiet ∧ (bounded reading).CanUse 1
    ∧ (bounded reading).outOfBounds 0o777 = true ∧ ((bounded reading).channel 1).active = true
    ∧ ((bounded reading).channel 3).active = false ∧ (bounded reading).connectReply 3 0 = false
    ∧ ((bounded reading).channel 3).conn = none ∧ bits (bounded reading).a 24 15 = 0
    ∧ ((bounded (reading.setChannel 1 { reading.channel 1 with active := false })).channel 1).conn ≠ none
    ∧ (bounded (reading.setChannel 1 { reading.channel 1 with active := false })).functionReply 1 = false :=
  ⟨⟨rfl, rfl, rfl, rfl⟩, ⟨rfl, by decide +kernel⟩, by decide +kernel, by decide +kernel, by decide +kernel,
    by decide +kernel, by decide +kernel, by decide +kernel, by decide +kernel, by decide +kernel⟩

/-- About to fetch the word just above the region. -/
def beyond : State := { bounded (start []) with p := 0o2000, needRni := true }

theorem witness_BoundsFaults_fetch : beyond.Ready ∧ beyond.Quiet ∧ beyond.needRni = true
    ∧ beyond.outOfBounds beyond.p = true :=
  ⟨⟨rfl, rfl, rfl, rfl, rfl, by decide +kernel, rfl⟩, ⟨rfl, rfl, rfl, rfl⟩, rfl, by decide +kernel⟩
theorem witness_BoundsProtectStorage : Memory.wf (bounded (start [])).memory = true ∧ (bounded (start [])).slots = []
    ∧ (bounded (start [])).outOfBounds 0o2000 = true ∧ (∃ t, exec (.sta 0 0o1777) (bounded (start [])) = .next t)
    ∧ (0o2000 : Addr) ≠ 7 ∧ (0o2000 : Addr) ≠ 0o20 ∧ ¬ (0o30 ≤ (0o2000 : Addr) ∧ (0o2000 : Addr) ≤ 0o33) :=
  ⟨rfl, rfl, by decide +kernel, ⟨_, rfl⟩, by decide, by decide, by decide⟩
theorem witness_BoundsRegistersKept : (∃ t, exec (.eub 0o77777) (start []) = .next t)
    ∧ ∃ t, exec (.elb 0o77777) (start []) = .next t := ⟨⟨_, rfl⟩, ⟨_, rfl⟩⟩
theorem witness_BoundsInstructions : (start []).intActive = false ∧ (bounded (start [])).intActive = true
    ∧ (bounded (start [])).mask.getLsbD 42 = true ∧ (bounded (start [])).Undisturbed := by decide +kernel
theorem witness_FixedPointSums : (start []).CanRead 0 0o77777 ∧ (start []).CanRead 6 0 :=
  ⟨start_can_read _ _ _ (by decide), start_can_read _ _ _ (by decide)⟩
theorem witness_Multiply : (start []).CanRead 6 0o77777 := start_can_read _ _ _ (by decide)

/-- A dividend QA and a divisor at 00200. -/
def dividing (q a x : Word) : State := { start [(0o200, x)] with q := q, a := a }

theorem dividing_can_read (q a x : Word) : (dividing q a x).CanRead 0 0o200 := ⟨⟨rfl, rfl, rfl, rfl⟩, by decide, rfl⟩
theorem witness_Divide : onesValue ((dividing 0 0o3777777777777777 1).augmented
      ((dividing 0 0o3777777777777777 1).operand 0 0o200)) ≠ 0
    ∧ ((onesValue ((0 : Word) ++ (0o3777777777777777 : Word) : BitVec 96)).tdiv (onesValue (1 : Word))).natAbs
      = 2 ^ 47 - 1 := by decide +kernel
theorem witness_Divide_fault : onesValue ((dividing 0 5 minus0).augmented ((dividing 0 5 minus0).operand 0 0o200)) = 0
    ∧ ((onesValue ((0 : Word) ++ (0o4000000000000000 : Word) : BitVec 96)).tdiv (onesValue (1 : Word))).natAbs
      = 2 ^ 47 := by decide +kernel
theorem witness_Skips : (start []).b 6 = 0 ∧ (start []).b 6 ≠ 1 ∧ (start []).CanRead 0 0o77777
    ∧ (start []).CanStore 6 0 :=
  ⟨rfl, by decide +kernel, start_can_read _ _ _ (by decide), start_can_store _ _ _ (by decide)⟩
theorem witness_FloatingPoint : (start []).CanRead 0 0o77777 ∧ (start []).config.floatingOption = true
    ∧ (leaving 0o300).config.floatingOption = false ∧ (leaving 0o300).Undisturbed :=
  ⟨start_can_read _ _ _ (by decide), rfl, rfl, rfl, rfl⟩
theorem witness_FloatingFaults : (fmu 0o0000400000000000 0o1776400000000000 AugT.zero).underflow = true
    ∧ (unpack 0o2003400000000000).coef ≠ 0 ∧ (unpack 0).coef = 0
    ∧ 2 * (unpack 0o2003200000000000).coef = (unpack 0o2003400000000000).coef := by decide +kernel
theorem witness_FloatingResults_numbers : (2 ^ 36 : Nat) < 2 ^ 37 ∧ (2 ^ 36 ≤ (2 ^ 37 - 1 : Nat))
    ∧ (0 < (1 : Nat) ∧ (1 : Nat) < 2 ^ 36) ∧ (2 ^ 36 - 1 : Nat) < 2 ^ 36 ∧ (-1023 : Int) ≤ 1023 := by decide

/-- 4, 2 and -1/2 - 2^-36. -/
def four : Word := 0o2003400000000000
def two : Word := 0o2002400000000000
def minusHalf : Word := ~~~0o2000400000000001

theorem witness_FloatingResults_products : (unpack four).odd = false ∧ (unpack two).odd = false ∧ (unpack four).coef ≠ 0
    ∧ (unpack two).coef ≠ 0 ∧ (unpack four).coef < 2 * (unpack two).coef
    ∧ (unpack four).exponent = (unpack four).exponent ∧ (unpack 0).coef = 0
    ∧ (unpack four).signed + (unpack four).signed > 0
    ∧ (unpack minusHalf).signed + (unpack minusHalf).signed < 0 := by decide +kernel
theorem witness_FloatingResults_sums : (unpack minusHalf).odd = false ∧ (unpack minusHalf).coef ≠ 0
    ∧ (unpack two).exponent = (unpack minusHalf).exponent + (2 : Nat) ∧ 2 ^ 35 ≤ (unpack two).coef
    ∧ 2 ^ 35 ≤ (unpack minusHalf).coef
    ∧ (∃ r ∈ [-1, 0, 1], fadClose (unpack two) (unpack minusHalf) 2 r = true)
    ∧ (unpack 0o2044400000000000).exponent = (unpack 0o2000400000000000).exponent + (36 : Nat) :=
  ⟨by decide +kernel, by decide +kernel, by decide +kernel, by decide +kernel, by decide +kernel,
    ⟨0, by decide, by decide +kernel⟩, by decide +kernel⟩
theorem witness_FloatingNegligible : (unpack 0o2046400000000000).odd = false ∧ (unpack 0o2001400000000000).odd = false
    ∧ 2 ^ 35 ≤ (unpack 0o2046400000000000).coef ∧ (unpack 0o2050200000000000).odd = false
    ∧ (unpack 0o2050200000000000).coef ≠ 0 ∧ (unpack 0o2050200000000000).coef < 2 ^ 35
    ∧ (unpack 0o2001400000000000).exponent + 36 < (unpack 0o2046400000000000).exponent
    ∧ (unpack 0o2001400000000000).exponent + 36 < (unpack 0o2050200000000000).exponent := by decide +kernel
theorem witness_LogicalInstructions : (start []).CanRead 6 0o77777 := start_can_read _ _ _ (by decide)
theorem witness_Shifts : ((start []).modified 0 48).toNat ≤ 48 ∧ ((start []).modified 0 96).toNat ≤ 96
    ∧ 48 < ((start []).modified 0 49).toNat ∧ 96 < ((start []).modified 0 97).toNat := by decide +kernel
theorem witness_Scales : (6 : Desig) ≠ 7 ∧ (1 : Word) ≠ plus0 ∧ (1 : Word) ≠ minus0
    ∧ (1 : BitVec 96) ≠ 0 ∧ (1 : BitVec 96) ≠ BitVec.allOnes 96 := by decide
theorem witness_ReplaceInstructions : (start []).CanStore 6 0o77777 := start_can_store _ _ _ (by decide)

/-- A search of five words through B2 for 00040. -/
def searching : State :=
  { start [(0o602, 0o30), (0o603, 0o40), (0o604, 0o50)] with a := 0o40 }.setB 2 5

theorem searching_quiet : searching.Quiet := ⟨rfl, rfl, rfl, rfl⟩
theorem witness_SearchIteration : searching.hasWord 0o77777 = true ∧ searching.b 3 = 0 ∧ searching.b 2 ≠ 0
    ∧ searching.hasWord (add15 0o600 (searching.b 2 - 1)) = true := by decide +kernel
theorem witness_SearchFindsLastMatch : (∀ j : Addr, searching.hasWord (add15 0o600 j) = true)
    ∧ (3 : Addr) < searching.b 2 ∧ Memory.word searching.memory (add15 0o600 3) = searching.a
    ∧ Memory.word searching.memory (add15 0o600 4) ≠ searching.a
    ∧ Memory.word searching.memory (add15 0o700 4) ≠ searching.a :=
  ⟨fun _ => rfl, by decide +kernel, by decide +kernel, by decide +kernel, by decide +kernel⟩
theorem witness_SearchFindsLastMatch_last (k : Addr) (h1 : 3 < k) (h2 : k < searching.b 2) : k = 4 := by
  have h3 : searching.b 2 = 5 := by decide +kernel
  rw [h3] at h2
  have a1 : 3 < k.toNat := BitVec.lt_def.mp h1
  have a2 : k.toNat < 5 := BitVec.lt_def.mp h2
  exact BitVec.eq_of_toNat_eq (show k.toNat = 4 by omega)
theorem witness_NormalJumps : (start []).CanJump 0o77777 ∧ condition 0 (start []).a = true
    ∧ condition 3 (start []).a = false ∧ (bounded (start [])).outOfBounds 0o2000 = true
    ∧ (bounded (start [])).Undisturbed
    ∧ (1 : Word) ≠ plus0 ∧ (1 : Word) ≠ minus0 := ⟨start_can_jump _, by decide +kernel⟩
theorem witness_NormalJumps_entrance : entering.CanJump 0o77777 ∧ entering.fixedWord entering.p ≠ none :=
  ⟨entering_can_jump _, by decide +kernel⟩
theorem witness_ReturnJumps : entering.Quiet ∧ entering.CanJump 0 ∧ (start []).Quiet ∧ (start []).CanJump 0o77777 ∧ (start []).hasWord 0o77777 = true
    ∧ (bounded (start [])).outOfBounds 0o777 = true := 
  ⟨⟨rfl, rfl, rfl, rfl⟩, entering_can_jump _, start_quiet _, start_can_jump _, rfl, by decide +kernel⟩
theorem witness_SelectiveStops : (start []).slsStopped = false ∧ ({ start [] with slsStopped := true } : State).CanJump 0
    ∧ (start []).CanJump 0o77777 ∧ (start []).hasWord 0o77777 = true :=
  ⟨rfl, ⟨rfl, Or.inl rfl⟩, start_can_jump _, rfl⟩
theorem witness_IndexJump : (start []).b 1 = 0 ∧ searching.b 2 ≠ 0 ∧ searching.CanJump 0o77777
    ∧ ((bounded (start [])).setB 6 1).b 6 ≠ 0 ∧ ((bounded (start [])).setB 6 1).outOfBounds 0o2000 = true
    ∧ ((bounded (start [])).setB 6 1).Undisturbed :=
  ⟨rfl, by decide +kernel, ⟨rfl, Or.inl rfl⟩, by decide +kernel, by decide +kernel, by decide +kernel⟩
theorem witness_BankJumps : (start []).CanJump ((start []).modified 6 0o77777)
    ∧ (start []).outOfBounds ((start []).modified 6 0o77777 + 1) = false ∧ (start []).hasWord 0o77777 = true
    ∧ characterPattern (mkUbjp Layouts.atReset.bank 0o77777) = false :=
  ⟨start_can_jump _, rfl, rfl, by decide⟩
theorem witness_CharacterInstructions : (6 : Desig) ≠ 7 ∧ ((start []).b 0).toNat ∈ [0, 6, 12, 18, 24, 30, 36, 42]
    ∧ (((start []).setB 6 42).b 6).toNat ∈ [0, 6, 12, 18, 24, 30, 36, 42]
    ∧ (((start []).setB 6 43).b 6).toNat ∉ [0, 6, 12, 18, 24, 30, 36, 42]
    ∧ (((start []).setB 6 48).b 6).toNat ∉ [0, 6, 12, 18, 24, 30, 36, 42]
    ∧ ((start []).setB 6 48).Undisturbed := by decide +kernel
theorem witness_Augment : augV (start []).config.layouts.aug 0o60 ≠ 7 ∧ augV (start []).config.layouts.aug 0o70 = 7
    ∧ (start []).hasWord (bits (start []).u 0 15) = true := by decide +kernel
theorem witness_InterruptRegisters : (47 : Nat) < 48 := by decide
theorem witness_InternalFunctions : (start []).CanUse 3 ∧ (start []).locked = false :=
  ⟨start_can_use 3, rfl⟩

/-- Two channels only. -/
def small : State := { start [] with config := { Config.atReset with lastChannel := 1 } }

theorem witness_UndefinedCodes : small.locked = false ∧ small.installed (bits (0o30 : Addr) 3 2) = false := by
  decide +kernel

/-- At the lower half of a word. -/
def atLower (u : Word) : State := { start [] with half := .lower, u := u }

theorem witness_UndefinedCodes_lower : (atLower 0o63000000).Ready ∧ (atLower 0).stopRequest = false
    ∧ (atLower 0).needRni = false ∧ (atLower 0).resumed = none ∧ (atLower 0).half = .lower
    ∧ bits (atLower 0o63000000).u 18 6 = 0o63 ∧ bits (atLower 0o74000000).u 18 6 = 0o74
    ∧ bits (atLower 0o74000000).u 15 3 ≠ 7
    ∧ bits (atLower 0o7440000012000200).u 42 6 = 0o74 ∧ bits (atLower 0o6300000000100400).u 42 6 = 0o63
    ∧ characterPattern (atLower 0o6300000000100400).u = false :=
  ⟨⟨rfl, rfl, rfl, rfl, rfl, rfl, rfl⟩, rfl, rfl, rfl, rfl, by decide, by decide, by decide, by decide,
    by decide, by decide⟩

/-- The system locked. -/
def lockedOut : State := { start [] with lockout := true, intActive := true }

theorem witness_Lockout : lockedOut.lockout = true ∧ lockedOut.intActive = true ∧ lockedOut.mode1 = false
    ∧ lockedOut.Undisturbed := by decide +kernel
theorem witness_Sense : (start []).half = .upper ∧ (0o31 : Addr).toNat = 8 * (3 : BitVec 2).toNat + 1
    ∧ (0o77777 : Addr).toNat ∉ [0, 1] := by decide +kernel
theorem witness_Connect : (start []).CanUse 1 ∧ (reading.channel 1).active = true
    ∧ ((start []).channel 1).active = false ∧ (start []).CanJump 0o77777
    ∧ (start []).typewriterNamed 0 0o3000 = true ∧ (start []).typewriterNamed 1 0o3000 = false
    ∧ ({ start [] with answers := [.parity] } : State).answers.head? = some .parity
    ∧ ({ start [] with answers := [.reply] } : State).answers.head? = some .reply
    ∧ (bounded (start [])).outOfBounds 0o777 = true ∧ (bounded (start [])).Undisturbed :=
  ⟨start_can_use 1, by decide +kernel, by decide +kernel, start_can_jump _, by decide +kernel,
    by decide +kernel, by decide +kernel, by decide +kernel, by decide +kernel, by decide +kernel⟩

/-- Channel x connected to equipment 3, which gives one answer; on channel 0 that is the typewriter. -/
def connected (x : BitVec 2) (a : Answer) : State :=
  ({ start [] with answers := [a] } : State).setChannel x
    { Channel.reset with conn := some { equipment := 3, unit := 0 } }

theorem witness_ExternalFunction : ((connected 1 .parity).channel 1).active = false
    ∧ ((connected 1 .parity).channel 1).conn ≠ none ∧ (connected 1 .parity).answers.head? = some .parity
    ∧ (connected 1 .reply).typewriterConnected 1 = false ∧ (connected 1 .reply).answers.head? = some .reply
    ∧ (connected 1 .reject).answers.head? ≠ some .reply ∧ (connected 1 .reject).answers.head? ≠ some .parity
    ∧ (bounded (connected 1 .reject)).outOfBounds 0o2000 = true ∧ (bounded (connected 1 .reject)).Undisturbed
    ∧ ((start []).channel 1).conn = none := by decide +kernel
theorem witness_ExternalFunction_typewriter : (connected 0 .reply).typewriterConnected 0 = true
    ∧ ((connected 0 .reply).channel 0).active = false ∧ (connected 0 .reply).console.typewriterOn = true
    ∧ (connected 0 .reply).answers.head? ≠ some .parity ∧ (connected 0 .parity).answers.head? = some .parity
    ∧ (connected 0 .reply).typewriter.uncleared = false
    ∧ ({ connected 0 .reply with typewriter := { Typewriter.reset with uncleared := true } } : State).typewriterConnected 0
      = true
    ∧ ({ connected 0 .reply with console := { Console.reset with typewriterOn := false } } : State).typewriterConnected 0
      = true
    ∧ (bounded (connected 0 .parity)).outOfBounds 0o777 = true := by decide +kernel
theorem witness_ReadAndWrite : (start []).CanUse 3 ∧ (start []).Quiet ∧ (start []).hasWord 0o77777 = true
    ∧ ((start []).channel 3).active = false ∧ bits (Memory.word (start []).memory 0o77777) 24 15 = 0
    ∧ bits (Memory.word (start [(0o77777, 0o0000000100000000)]).memory 0o77777) 24 15 ≠ 0 :=
  ⟨start_can_use 3, start_quiet [], rfl, by decide +kernel, by decide +kernel, by decide +kernel⟩
theorem witness_ReadAndWrite_typewriter : (connected 0 .reply).typewriterConnected 0 = true
    ∧ ((connected 0 .reply).channel 0).active = false ∧ (connected 0 .reply).locked = false := by decide +kernel
theorem witness_CopyAndClear : (start []).CanUse 3 := start_can_use 3
theorem witness_ChangeControlWord : reading.CanUse 1 ∧ bits reading.a 24 15 = 0 ∧ reading.CanJump 0o77777
    ∧ bits ({ reading with a := 0o0000000100000000 } : State).a 24 15 ≠ 0 ∧ (reading.channel 1).active = true
    ∧ reading.moves = [] ∧ reading.restartRequest = false :=
  ⟨⟨rfl, by decide +kernel⟩, by decide +kernel, ⟨rfl, Or.inl rfl⟩, by decide +kernel, by decide +kernel, rfl, rfl⟩

/-- Channel 1 in the middle of a block. -/
def inputAt (held : BitVec 3) (count : Addr) : State :=
  reading.setChannel 1 { reading.channel 1 with held := held, count := count }

theorem witness_ChannelInput : [inputAt 0 1, inputAt 2 1, inputAt 3 1, inputAt 3 2, inputAt 3 0].all (fun s =>
    s.installed 1 && (s.channel 1).active && decide ((s.channel 1).dir = .read) && !(s.channel 1).halted
      && (s.channel 1).conn.isSome && !s.typewriterConnected 1 && s.hasWord (s.channel 1).addr) = true := by
  decide +kernel
theorem witness_ChannelInput_bytes : ((inputAt 0 1).channel 1).held = 0 ∧ ((inputAt 2 1).channel 1).held.toNat < 3
    ∧ ((inputAt 3 1).channel 1).held = 3 ∧ ((inputAt 3 1).channel 1).count = 1 ∧ ((inputAt 3 2).channel 1).count ≠ 1
    ∧ ((inputAt 3 0).channel 1).count ≠ 1
    ∧ (true && true && ({ inputAt 3 1 with mask := bit48 21 } : State).selected (20 + (1 : BitVec 2).toNat)) = true
    ∧ (inputAt 3 1).ccwdWait ≠ some 1 ∧ (inputAt 3 1).autoLoad ≠ some 1
    ∧ ({ inputAt 3 1 with autoLoad := some 1 } : State).ccwdWait ≠ some 1
    ∧ ({ inputAt 3 1 with config := { Config.atReset with storage16k := true } } : State).hasWord 0o40000 = false := by
  decide +kernel
theorem witness_ChannelInput_last_key : ((typing .read 0 0).setChannel 0 { (typing .read 0 0).channel 0 with
      count := 1 }).typewriterWorks 0 = true
    ∧ (((typing .read 0 0).setChannel 0 { (typing .read 0 0).channel 0 with count := 1 }).channel 0).count = 1
    ∧ (typing .read 0 0).ccwdWait ≠ some 0 ∧ (typing .read 0 0).autoLoad ≠ some 0
    ∧ ({ typing .read 0 0 with ccwdWait := some 0 } : State).ccwdWait = some 0
    ∧ ({ typing .read 0 0 with autoLoad := some 0 } : State).ccwdWait ≠ some 0 := by decide +kernel
theorem witness_ChannelInput_typewriter : (typing .read 0 0).typewriterWorks 0 = true
    ∧ (typing .read 0 0).installed 0 = true ∧ ((typing .read 0 0).channel 0).active = true
    ∧ ((typing .read 0 0).channel 0).halted = false ∧ ((typing .read 0 0).channel 0).count ≠ 1
    ∧ ((typing .read 0 0).channel 0).dir = .read
    ∧ (typing .read 0 0).hasWord ((typing .read 0 0).channel 0).addr = true
    ∧ ((reading.setChannel 1 { reading.channel 1 with conn := none }).channel 1).conn = none := by decide +kernel

/-- Channel 3 writes from the top of storage to equipment 2. -/
def writing (held : BitVec 3) (count : Addr) (stepped : Bool) : State := (start []).setChannel 3
  { Channel.reset with
    active := true, dir := .write, addr := 0o77777, count := count, held := held, stepped := stepped
    conn := some { equipment := 2, unit := 0 } }

theorem witness_ChannelOutputAndEnd : [writing 0 1 false, writing 4 0 true, writing 2 0 true, writing 1 0 true,
    writing 1 1 false, writing 1 2 false, writing 1 0 false].all (fun s =>
    s.installed 3 && (s.channel 3).active && decide ((s.channel 3).dir = .write) && !(s.channel 3).halted
      && (s.channel 3).conn.isSome && !s.typewriterConnected 3 && s.hasWord (s.channel 3).addr) = true := by
  decide +kernel
theorem witness_ChannelOutputAndEnd_bytes : ((writing 0 1 false).channel 3).held = 0
    ∧ ((writing 0 1 false).channel 3).count ≠ 0 ∧ ((writing 4 0 true).channel 3).held ∈ [2, 3, 4]
    ∧ ((writing 2 0 true).channel 3).held ∈ [2, 3, 4] ∧ ((writing 1 1 false).channel 3).held = 1
    ∧ ((writing 1 1 false).channel 3).count - 1 = 0 ∧ ((writing 1 0 true).channel 3).count = 0
    ∧ ((writing 1 2 false).channel 3).count - 1 ≠ 0 ∧ ((writing 1 0 false).channel 3).count - 1 ≠ 0
    ∧ (writing 1 0 true).ccwdWait ≠ some 3 ∧ (writing 1 0 true).autoLoad ≠ some 3
    ∧ (typing .write 4 0).typewriterWorks 0 = true ∧ ((typing .write 4 0).channel 0).held ≠ 0
    ∧ (typing .write 4 0).typewriter.disturbed = false ∧ ((inputAt 0 1).channel 1).held = 0
    ∧ ((inputAt 3 1).channel 1).held ≠ 0 ∧ ((inputAt 3 1).channel 1).reverse = false := by decide +kernel
/-- End of Record, with a CCWD or an Auto-Load that waits; the typewriter's switch, with the console dead and live. -/
theorem witness_ChannelOutputAndEnd_record : (inputAt 0 1).installed 1 = true
    ∧ ((inputAt 0 1).channel 1).active = true ∧ ((inputAt 0 1).channel 1).halted = false
    ∧ ({ inputAt 3 1 with ccwdWait := some 1 } : State).ccwdWait = some 1
    ∧ ({ inputAt 3 1 with autoLoad := some 1 } : State).ccwdWait ≠ some 1
    ∧ ({ writing 1 1 false with ccwdWait := some 3 } : State).ccwdWait = some 3
    ∧ ((typing .read 0 0).channel 0).halted = false ∧ (typing .read 0 0).typewriterWorks 0 = true
    ∧ (typing .read 0 0).config.typewriterChannel = 0 ∧ (typing .read 0 0).hasWord ((typing .read 0 0).channel 0).addr = true
    ∧ ({ typing .read 0 0 with systemActive := true } : State).systemActive = true
    ∧ ({ typing .read 0 0 with systemActive := false } : State).console.maintenance = false := by decide +kernel
theorem witness_IllegalCodes : (start []).Undisturbed := ⟨rfl, rfl⟩
theorem witness_ClearAndRestart : Memory.wf (start []).memory = true ∧ (start []).ccwdWait = none
    ∧ (start []).badParity = [] ∧ (start []).installed 3 = true
    ∧ ({ start [] with ccwdWait := some 3 } : State).ccwdWait ≠ none := by decide +kernel
theorem witness_StepKeepsSound : fetching.Sound ∧ ∃ t, step fetching = .next t :=
  ⟨⟨by decide +kernel, ⟨fun h => Bool.noConfusion h, fun _ => rfl⟩⟩, ⟨_, rfl⟩⟩
theorem witness_ConfigKept : ∃ t, step fetching = .next t := ⟨_, rfl⟩

end Sys2Proof.Tests
end

/-! The installation's parameters (00_scope R4, R6) are fixed: no update of the state writes the field `config`, so no
event, no instruction and no move of the operator changes it.

First one rule for each function from states to states, in the order of the model's files; then one for each operation
that answers a result and goes on with a continuation; then the instructions, the program's turn and the moves. -/

namespace Sys2Proof.Machine

/-! ## Registers and the ends of an instruction -/

@[simp] theorem State.clearMode_config (s : State) (c : Category) : (s.clearMode c).config = s.config := by
  cases c <;> rfl

@[simp] theorem State.setExit_config (s : State) (c : Category) (h : Half) : (s.setExit c h).config = s.config := by
  cases c <;> rfl

@[simp] theorem State.drawBit_config (s : State) : s.drawBit.2.config = s.config := rfl

@[simp] theorem State.freeIr_config (s : State) (i : Nat) : (s.freeIr i).config = s.config := by
  unfold State.freeIr
  split <;> rfl

@[simp] theorem State.addToA_config (s : State) (x : Word) : (s.addToA x).config = s.config :=
  State.setIrIf_config s 3 _

@[simp] theorem State.skipIf_config (s : State) (c : Bool) : (s.skipIf c).config = s.config := by
  cases c
  · exact s.next24_config
  · exact s.advance_config

@[simp] theorem State.exitLanding_config (s : State) (c : Category) (t : Addr) :
    (s.exitLanding c t).config = s.config :=
  State.clearMode_config _ c

@[simp] theorem State.freeLanding_config (s : State) (c : Category) (t : Addr) (own : Half) :
    (s.freeLanding c t own).config = s.config := by
  simp only [State.freeLanding]
  split
  · exact State.clearMode_config _ c
  · rfl

@[simp] theorem State.transfer_config (s : State) (plain : Bool) (t : Addr) (own : Half) :
    (s.transfer plain t own).config = s.config := by
  unfold State.transfer
  split
  · rfl
  · split <;> split <;> simp

@[simp] theorem State.entryParity_config (s : State) (f : Addr) : (s.entryParity f).config = s.config := by
  unfold State.entryParity
  split
  · split <;> rfl
  · rfl

@[simp] theorem State.arrive_config (s : State) (f : Addr) : (s.arrive f).config = s.config := rfl

@[simp] theorem State.enter_config (s : State) (f ret : Addr) : (s.enter f ret).config = s.config :=
  State.entryParity_config _ f

@[simp] theorem State.cat1Entry_config (s : State) (pn : Addr) (hn : Half) : (s.cat1Entry pn hn).config = s.config :=
  State.enter_config _ _ _

/-! ## Channels and the typewriter -/

@[simp] theorem State.autoLoadGo_config (s : State) : s.autoLoadGo.config = s.config := rfl

@[simp] theorem State.wentInactive_config (s : State) (x : BitVec 2) : (s.wentInactive x).config = s.config := by
  unfold State.wentInactive
  split
  · exact s.endWait_config
  · split <;> rfl

@[simp] theorem State.lowerCase_config (s : State) (x : BitVec 2) : (s.lowerCase x).config = s.config := by
  unfold State.lowerCase
  split <;> rfl

@[simp] theorem State.deactivate_config (s : State) (x : BitVec 2) : (s.deactivate x).config = s.config := by
  simp [State.deactivate]

@[simp] theorem State.endOfBlock_config (s : State) (x : BitVec 2) : (s.endOfBlock x).config = s.config := by
  unfold State.endOfBlock
  split <;> simp

@[simp] theorem State.endIfDone_config (s : State) (x : BitVec 2) : (s.endIfDone x).config = s.config := by
  unfold State.endIfDone
  split <;> simp

@[simp] theorem State.channelStore_config (s : State) (x : BitVec 2) (w : Word) :
    (s.channelStore x w).config = s.config := rfl

@[simp] theorem State.presentWord_config (s : State) (x : BitVec 2) : (s.presentWord x).config = s.config := by
  unfold State.presentWord
  split <;> rfl

@[simp] theorem State.takeByte_config (s : State) (x : BitVec 2) (byte : BitVec 12) (bad : Bool) :
    (s.takeByte x byte bad).config = s.config := by
  unfold State.takeByte
  split <;> rfl

@[simp] theorem State.lineEvent_config (s : State) (x : BitVec 2) (e : BitVec 3) (level : Bool) :
    (s.lineEvent x e level).config = s.config := by
  unfold State.lineEvent
  split
  · rfl
  · split <;> rfl

@[simp] theorem State.reachMargin_config (s : State) : s.reachMargin.config = s.config := by
  unfold State.reachMargin
  split <;> rfl

@[simp] theorem State.typeParityError_config (s : State) : s.typeParityError.config = s.config := by
  unfold State.typeParityError
  split <;> rfl

@[simp] theorem State.typewriterIdle_config (s : State) : s.typewriterIdle.config = s.config := by
  unfold State.typewriterIdle
  split <;> rfl

@[simp] theorem State.markParity_config (s : State) (a : Addr) (bad : Bool) : (s.markParity a bad).config = s.config :=
  rfl

@[simp] theorem State.corruptWord_config (s : State) (a : Addr) (w : Word) : (s.corruptWord a w).config = s.config := by
  unfold State.corruptWord
  split <;> rfl

@[simp] theorem State.cutWrite_config (s : State) (x : BitVec 2) : (s.cutWrite x).config = s.config := by
  unfold State.cutWrite
  split <;> simp

@[simp] theorem State.wipeChannel_config (s : State) (x : BitVec 2) : (s.wipeChannel x).config = s.config := by
  simp only [State.wipeChannel]
  split <;> simp

@[simp] theorem State.clearChannel_config (s : State) (x : BitVec 2) : (s.clearChannel x).config = s.config := by
  unfold State.clearChannel
  split <;> simp

@[simp] theorem State.wipeInstalled_config (s : State) (x : BitVec 2) : (s.wipeInstalled x).config = s.config := by
  unfold State.wipeInstalled
  split <;> simp

@[simp] theorem State.freeInactive_config (s : State) : s.freeInactive.config = s.config := rfl

@[simp] theorem State.clearChannels_config (s : State) : s.clearChannels.config = s.config := by
  simp [State.clearChannels]

@[simp] theorem State.externalClear_config (s : State) : s.externalClear.config = s.config := by
  unfold State.externalClear
  split <;> simp

/-! ## References, indirect levels and input/output -/

@[simp] theorem State.noteRead_config (s : State) (a : Addr) : (s.noteRead a).config = s.config :=
  State.setIrIf_config _ _ _

@[simp] theorem State.loadStep_config (s : State) : s.loadStep.config = s.config := rfl

@[simp] theorem State.putIndirect_config (s : State) (w : Word) : (s.putIndirect w).config = s.config := rfl

@[simp] theorem State.takeAnswer_config (s : State) : s.takeAnswer.2.config = s.config := rfl

@[simp] theorem State.connect_config (s : State) (x : BitVec 2) (c : BitVec 12) : (s.connect x c).config = s.config := by
  simp only [State.connect]
  split <;> rfl

@[simp] theorem State.functionParity_config (s : State) (x : BitVec 2) : (s.functionParity x).config = s.config := rfl

@[simp] theorem State.typewriterFunction_config (s : State) (c : BitVec 12) :
    (s.typewriterFunction c).config = s.config := rfl

@[simp] theorem State.function_config (s : State) (x : BitVec 2) (c : BitVec 12) :
    (s.function x c).config = s.config := by
  unfold State.function
  repeat' split
  all_goals rfl

@[simp] theorem State.functionSent_config (s : State) (x : BitVec 2) : (s.functionSent x).config = s.config := by
  unfold State.functionSent
  split <;> rfl

@[simp] theorem State.admitTypewriter_config (s : State) (x : BitVec 2) : (s.admitTypewriter x).config = s.config := by
  unfold State.admitTypewriter
  split <;> rfl

@[simp] theorem State.beginOperation_config (s : State) (x : BitVec 2) (d : Direction) (w : Word) :
    (s.beginOperation x d w).config = s.config := by
  unfold State.beginOperation
  split <;> simp

/-! ## The console -/

@[simp] theorem State.freeParErr_config (s : State) (w : Word) (x : BitVec 2) :
    (s.freeParErr w x).config = s.config := by
  unfold State.freeParErr
  split <;> rfl

@[simp] theorem State.internalClear_config (s : State) : s.internalClear.config = s.config := by
  simp only [State.internalClear, State.freeParErr_config]
  rfl

@[simp] theorem State.externalClearSwitch_config (s : State) : s.externalClearSwitch.config = s.config := by
  simp only [State.externalClearSwitch]
  split
  · split <;> simp
  · simp

@[simp] theorem State.restart_config (s : State) : s.restart.config = s.config := by
  simp [State.restart]

@[simp] theorem State.beginAutoLoad_config (s : State) (x : BitVec 2) (replied : Bool) :
    (s.beginAutoLoad x replied).config = s.config := by
  simp [State.beginAutoLoad]

@[simp] theorem State.replaceU_config (s : State) (w : Word) : (s.replaceU w).config = s.config := rfl

@[simp] theorem State.testClear_config (s : State) : s.testClear.config = s.config := by
  unfold State.testClear
  split
  · rfl
  · split <;> simp

@[simp] theorem State.requestStop_config (s : State) : s.requestStop.config = s.config := by
  unfold State.requestStop
  split <;> rfl

@[simp] theorem State.requestRestart_config (s : State) : s.requestRestart.config = s.config := by
  unfold State.requestRestart
  split <;> simp

@[simp] theorem State.testRun_config (s : State) (on : Bool) : (s.testRun on).config = s.config := by
  unfold State.testRun
  split
  · split <;> simp
  · rfl

@[simp] theorem State.freeAutoLoad_config (s : State) : s.freeAutoLoad.config = s.config := by
  unfold State.freeAutoLoad
  split <;> rfl

@[simp] theorem State.setSystemActive_config (s : State) (on : Bool) : (s.setSystemActive on).config = s.config := by
  unfold State.setSystemActive
  split
  · rfl
  · split <;> simp

@[simp] theorem State.panelWrite_config (s : State) (r : PanelRegister) (v : Word) :
    (s.panelWrite r v).config = s.config := by
  unfold State.panelWrite
  split
  · cases r <;> rfl
  · rfl

@[simp] theorem State.setSwitches_config (s : State) (c : Console) : (s.setSwitches c).config = s.config := by
  unfold State.setSwitches
  split <;> rfl

/-! ## What the instructions do to the registers -/

@[simp] theorem State.setQA_config (s : State) (v : BitVec 96) : (s.setQA v).config = s.config := rfl

@[simp] theorem State.setAQ_config (s : State) (v : BitVec 96) : (s.setAQ v).config = s.config := rfl

@[simp] theorem State.divide_config (s : State) (x : Word) : (s.divide x).config = s.config := by
  unfold State.divide
  split <;> rfl

@[simp] theorem State.increaseA_config (s : State) (x : Word) : (s.increaseA x).config = s.config :=
  State.setIrIf_config s 3 _

@[simp] theorem State.augment_config (s : State) (y : Addr) : (s.augment y).config = s.config := rfl

@[simp] theorem State.applyFp_config (s : State) (r : FpResult) : (s.applyFp r).config = s.config := by
  simp [State.applyFp, State.divideFault, State.exponentOverflow, State.exponentUnderflow]

@[simp] theorem State.clearInterruptSystem_config (s : State) : s.clearInterruptSystem.config = s.config := rfl

@[simp] theorem State.searchEnd_config (s : State) (b : Desig) (found : Bool) :
    (s.searchEnd b found).config = s.config := by
  unfold State.searchEnd
  split
  · simp
  · split <;> simp

/-! ## Results that keep the parameters -/

/-- The next state of a result, if there is one, has the installation of s. -/
def State.KeepsConfig (s : State) (r : Result) : Prop := Result.Gives (fun t => t.config = s.config) r

@[simp] theorem State.keepsConfig_next (s t : State) : s.KeepsConfig (.next t) ↔ t.config = s.config :=
  ⟨fun h => h t rfl, fun h => Result.gives_next h⟩

@[simp] theorem State.keepsConfig_fault (s : State) (f : Fault) : s.KeepsConfig (.fault f) := Result.gives_fault f

@[simp] theorem State.keepsConfig_refused (s : State) (x : Refusal) : s.KeepsConfig (.refused x) :=
  Result.gives_refused x

/-- Only the parameters of the state that a result is compared with matter. -/
theorem State.KeepsConfig.trans {s s1 : State} {r : Result} (h : s1.KeepsConfig r) (hs : s1.config = s.config) :
    s.KeepsConfig r :=
  fun t ht => (h t ht).trans hs

/-- A choice keeps the parameters when both branches do. -/
theorem State.keepsConfig_ite {s : State} {c : Prop} [Decidable c] {r1 r2 : Result} (h1 : s.KeepsConfig r1)
    (h2 : s.KeepsConfig r2) : s.KeepsConfig (if c then r1 else r2) := by
  split
  · exact h1
  · exact h2

/-! ## Events -/

theorem State.inputWord_keepsConfig (s : State) (x : BitVec 2) (w : Word) : s.KeepsConfig (s.inputWord x w) :=
  State.keepsConfig_ite (by simp) (by simp)

theorem State.storeAndEnd_keepsConfig (s : State) (x : BitVec 2) (w : Word) : s.KeepsConfig (s.storeAndEnd x w) :=
  State.keepsConfig_ite (by simp) (by simp)

theorem State.byteIn_keepsConfig (s : State) (x : BitVec 2) (byte : BitVec 12) (reversed bad halt : Bool) :
    s.KeepsConfig (s.byteIn x byte reversed bad halt) :=
  State.keepsConfig_ite
    (State.keepsConfig_ite (by simp) ((State.inputWord_keepsConfig _ _ _).trans (by simp))) (by simp)

theorem State.wordOut_keepsConfig (s : State) (x : BitVec 2) (stepNow : Bool) : s.KeepsConfig (s.wordOut x stepNow) :=
  State.keepsConfig_ite (State.keepsConfig_ite (by simp) (by simp)) (by simp)

theorem State.byteOut_keepsConfig (s : State) (x : BitVec 2) (bad halt : Bool) :
    s.KeepsConfig (s.byteOut x bad halt) :=
  State.keepsConfig_ite (State.keepsConfig_ite (by simp) (by simp)) (by simp)

theorem State.endOfRecord_keepsConfig (s : State) (x : BitVec 2) : s.KeepsConfig (s.endOfRecord x) :=
  State.keepsConfig_ite
    (State.keepsConfig_ite (by simp)
      (State.keepsConfig_ite ((State.storeAndEnd_keepsConfig _ _ _).trans rfl) (State.storeAndEnd_keepsConfig _ _ _)))
    (by simp)

theorem State.keyWord_keepsConfig (s : State) (x : BitVec 2) (code : BitVec 6) (bad halt : Bool) :
    s.KeepsConfig (s.keyWord x code bad halt) :=
  (State.inputWord_keepsConfig _ _ _).trans rfl

theorem State.keyEvent_keepsConfig (s : State) (code : BitVec 6) (bad halt : Bool) :
    s.KeepsConfig (s.keyEvent code bad halt) :=
  State.keepsConfig_ite (by simp)
    (State.keepsConfig_ite ((State.keyWord_keepsConfig _ _ _ _ _).trans rfl) (State.keepsConfig_ite (by simp) (by simp)))

theorem State.typewriterEnd_keepsConfig (s : State) : s.KeepsConfig s.typewriterEnd :=
  State.keepsConfig_ite (State.storeAndEnd_keepsConfig _ _ _) (by simp)

/-- No event changes the parameters. -/
theorem Async.perform_keepsConfig (e : Async) (s : State) : s.KeepsConfig (e.perform s) := by
  cases e with
  | byteIn x byte reversed bad halt => exact s.byteIn_keepsConfig x byte reversed bad halt
  | wordOut x stepNow => exact s.wordOut_keepsConfig x stepNow
  | byteOut x bad halt => exact s.byteOut_keepsConfig x bad halt
  | endOfRecord x => exact s.endOfRecord_keepsConfig x
  | key code bad halt => exact s.keyEvent_keepsConfig code bad halt
  | typewriterEndOfRecord => exact s.typewriterEnd_keepsConfig
  | tick | manualInterrupt =>
    simp only [Async.perform, State.keepsConfig_next]
    split <;> rfl
  | line | status | parity | corrupt | typewriterEndOfLine | typewriterTypeParity | typewriterReady =>
    simp [Async.perform]

/-- The events of a list leave the parameters to what follows them. -/
theorem State.runEvents_keepsConfig (es : List Async) (s : State) {k : State → Result}
    (hk : ∀ s1 : State, s1.KeepsConfig (k s1)) : s.KeepsConfig (s.runEvents es k) := by
  induction es generalizing s with
  | nil => exact hk s
  | cons e rest ih =>
    have he := e.perform_keepsConfig s
    simp only [State.runEvents]
    cases hp : e.perform s with
    | next s1 => exact (ih s1).trans (he s1 hp)
    | fault f => exact s.keepsConfig_fault f
    | refused x => exact s.keepsConfig_refused x

/-! ## Storage references -/

theorem State.slot_keepsConfig (s : State) {k : State → Result} (hk : ∀ s1 : State, s1.KeepsConfig (k s1)) :
    s.KeepsConfig (s.slot k) := by
  unfold State.slot
  split
  · exact hk s
  · exact (State.runEvents_keepsConfig _ _ hk).trans rfl

theorem State.cat1Interrupt_keepsConfig (s : State) (pn : Addr) (hn : Half) :
    s.KeepsConfig (s.cat1Interrupt pn hn) :=
  s.slot_keepsConfig (by simp)

theorem State.boundsFault_keepsConfig (s : State) : s.KeepsConfig s.boundsFault :=
  (State.cat1Interrupt_keepsConfig _ _ _).trans rfl

theorem State.trapJump_keepsConfig (s : State) (f ret : Addr) : s.KeepsConfig (s.trapJump f ret) :=
  s.slot_keepsConfig fun _ => (State.slot_keepsConfig _ (by simp)).trans rfl

theorem State.cat2Entry_keepsConfig (s : State) (low : BitVec 2) : s.KeepsConfig (s.cat2Entry low) :=
  (State.trapJump_keepsConfig _ _ _).trans rfl

theorem State.illegal_keepsConfig (s : State) : s.KeepsConfig s.illegal :=
  (State.trapJump_keepsConfig _ _ _).trans rfl

theorem State.jumpTo_keepsConfig (s : State) (plain : Bool) (t : Addr) : s.KeepsConfig (s.jumpTo plain t) :=
  State.keepsConfig_ite s.boundsFault_keepsConfig (by simp)

theorem State.readOperand_keepsConfig (s : State) (a : Addr) {k : State → Word → Result}
    (hk : ∀ (s1 : State) (w : Word), s1.KeepsConfig (k s1 w)) : s.KeepsConfig (s.readOperand a k) :=
  State.keepsConfig_ite (s.slot_keepsConfig fun s1 => (hk _ _).trans (s1.noteRead_config a)) (by simp)

theorem State.writeField_keepsConfig {n : Nat} (s : State) (a : Addr) (lo : Nat) (v : BitVec n) {k : State → Result}
    (hk : ∀ s1 : State, s1.KeepsConfig (k s1)) : s.KeepsConfig (s.writeField a lo v k) :=
  State.keepsConfig_ite (s.slot_keepsConfig fun _ => (hk _).trans rfl) (by simp)

theorem State.storeField_keepsConfig {n : Nat} (s : State) (a : Addr) (lo : Nat) (v : BitVec n) {k : State → Result}
    (hk : ∀ s1 : State, s1.KeepsConfig (k s1)) : s.KeepsConfig (s.storeField a lo v k) :=
  State.keepsConfig_ite s.boundsFault_keepsConfig (s.writeField_keepsConfig a lo v hk)

theorem State.writeWord_keepsConfig (s : State) (a : Addr) (v : Word) {k : State → Result}
    (hk : ∀ s1 : State, s1.KeepsConfig (k s1)) : s.KeepsConfig (s.writeWord a v k) :=
  State.keepsConfig_ite (s.slot_keepsConfig fun _ => (hk _).trans rfl) (by simp)

theorem State.storeWord_keepsConfig (s : State) (a : Addr) (v : Word) {k : State → Result}
    (hk : ∀ s1 : State, s1.KeepsConfig (k s1)) : s.KeepsConfig (s.storeWord a v k) :=
  State.keepsConfig_ite s.boundsFault_keepsConfig (s.writeWord_keepsConfig a v hk)

theorem State.replace_keepsConfig (s : State) (a : Addr) {f : State → Word → State × Word} {k : State → Result}
    (hf : ∀ (s1 : State) (w : Word), (f s1 w).1.config = s1.config) (hk : ∀ s1 : State, s1.KeepsConfig (k s1)) :
    s.KeepsConfig (s.replace a f k) :=
  State.keepsConfig_ite s.boundsFault_keepsConfig
    (s.readOperand_keepsConfig a fun s1 w => (State.writeWord_keepsConfig _ _ _ hk).trans (hf s1 w))

theorem State.returnJump_keepsConfig (s : State) (m : Addr) : s.KeepsConfig (s.returnJump m) :=
  s.storeField_keepsConfig _ _ _ (by simp)

/-! ## Operand forms -/

theorem State.resolve_keepsConfig (s : State) (b : Desig) (m : Addr) {k : Result} (hk : s.KeepsConfig k) :
    s.KeepsConfig (s.resolve b m k) :=
  State.keepsConfig_ite (s.readOperand_keepsConfig m (by simp)) hk

theorem State.effective_keepsConfig (s : State) (b : Desig) (m : Addr) {k : Addr → Result}
    (hk : ∀ a, s.KeepsConfig (k a)) : s.KeepsConfig (s.effective b m k) :=
  s.resolve_keepsConfig b m (hk _)

/-- An instruction that reads its operand and then only computes. -/
theorem State.withOperand_keepsConfig (s : State) (b : Desig) (m : Addr) {f : State → Word → State}
    (hf : ∀ s1 w, (f s1 w).config = s1.config) : s.KeepsConfig (s.withOperand b m fun s1 w => .next (f s1 w)) :=
  s.effective_keepsConfig b m fun a => s.readOperand_keepsConfig a (by simpa using hf)

theorem State.storeAt_keepsConfig (s : State) (b : Desig) (m : Addr) (v : Word) : s.KeepsConfig (s.storeAt b m v) :=
  s.effective_keepsConfig b m fun a => s.storeWord_keepsConfig a v (by simp)

theorem State.character_keepsConfig (s : State) (b v : Desig) (m : Addr) {k : Addr → Nat → Result}
    (hk : ∀ t p, s.KeepsConfig (k t p)) : s.KeepsConfig (s.character b v m k) :=
  State.keepsConfig_ite (by simp)
    (State.keepsConfig_ite
      (State.keepsConfig_ite (s.readOperand_keepsConfig m (by simp)) (hk _ _))
      s.illegal_keepsConfig)

theorem State.bankEffective_keepsConfig (s : State) (b : Desig) (m : Addr) (jump : Desig → Addr → Instr)
    {k : Addr → Result} (hk : ∀ t, s.KeepsConfig (k t)) : s.KeepsConfig (s.bankEffective b m jump k) :=
  State.keepsConfig_ite (s.readOperand_keepsConfig m (by simp)) (hk _)

theorem State.onIo_keepsConfig (s : State) (x : BitVec 2) {k : Result} (hk : s.KeepsConfig k) :
    s.KeepsConfig (s.onIo x k) :=
  State.keepsConfig_ite s.illegal_keepsConfig (State.keepsConfig_ite hk (by simp))

/-! ## Families of instructions -/

theorem State.floating_keepsConfig (s : State) (low : BitVec 2) (b : Desig) (m : Addr)
    (f : Word → Word → AugT → FpResult) : s.KeepsConfig (s.floating low b m f) :=
  State.keepsConfig_ite (s.withOperand_keepsConfig b m (by simp)) (s.cat2Entry_keepsConfig low)

theorem State.shift_keepsConfig (s : State) (b : Desig) (k : Addr) (limit : Nat) {f : Nat → State}
    (hf : ∀ n, (f n).config = s.config) : s.KeepsConfig (s.shift b k limit f) := by
  refine s.effective_keepsConfig b k fun v => ?_
  rw [State.keepsConfig_next, State.next24_config]
  split
  · rfl
  · exact hf _

theorem State.replaceSum_keepsConfig (s : State) (b : Desig) (m : Addr) (x y : State → Word → Word) :
    s.KeepsConfig (s.replaceSum b m x y) :=
  s.effective_keepsConfig b m fun a =>
    s.replace_keepsConfig a (fun s1 _ => s1.setIrIf_config 3 _) (by simp)

theorem State.search_keepsConfig (s : State) (b : Desig) (m : Addr) (hit : State → Word → Bool) :
    s.KeepsConfig (s.search b m hit) :=
  s.resolve_keepsConfig b m
    (State.keepsConfig_ite (s.readOperand_keepsConfig m (by simp))
      (State.keepsConfig_ite (by simp) ((State.readOperand_keepsConfig _ _ (by simp)).trans rfl)))

theorem State.jumpIf_keepsConfig (s : State) (c : Bool) (m : Addr) : s.KeepsConfig (s.jumpIf c m) :=
  State.keepsConfig_ite (s.jumpTo_keepsConfig true m) (by simp)

theorem State.returnJumpIf_keepsConfig (s : State) (c : Bool) (m : Addr) : s.KeepsConfig (s.returnJumpIf c m) :=
  State.keepsConfig_ite (s.returnJump_keepsConfig m) (by simp)

theorem State.stopThen_keepsConfig (s : State) (c : Bool) {jump : Result} (hj : s.KeepsConfig jump) :
    s.KeepsConfig (s.stopThen c jump) :=
  State.keepsConfig_ite (by simp) hj

/-! ## Instructions with a shape of their own -/

theorem execIsk_keepsConfig (b : Desig) (y : Addr) (s : State) : s.KeepsConfig (execIsk b y s) :=
  s.resolve_keepsConfig b y (State.keepsConfig_ite (by simp) (by simp))

theorem execIjp_keepsConfig (b : Desig) (m : Addr) (s : State) : s.KeepsConfig (execIjp b m s) :=
  s.resolve_keepsConfig b m
    (State.keepsConfig_ite (by simp) (State.keepsConfig_ite s.boundsFault_keepsConfig (by simp)))

theorem execSsh_keepsConfig (b : Desig) (m : Addr) (s : State) : s.KeepsConfig (execSsh b m s) :=
  s.effective_keepsConfig b m fun a =>
    State.keepsConfig_ite s.boundsFault_keepsConfig
      (s.readOperand_keepsConfig a fun s1 _ => s1.writeWord_keepsConfig a _ (by simp))

theorem execLdch_keepsConfig (b v : Desig) (m : Addr) (s : State) : s.KeepsConfig (execLdch b v m s) :=
  s.character_keepsConfig b v m fun t _ => s.readOperand_keepsConfig t (by simp)

theorem execStch_keepsConfig (b v : Desig) (m : Addr) (s : State) : s.KeepsConfig (execStch b v m s) :=
  s.character_keepsConfig b v m fun t p =>
    State.keepsConfig_ite s.boundsFault_keepsConfig
      (s.readOperand_keepsConfig t fun s1 _ => s1.writeField_keepsConfig t p _ (by simp))

theorem execBrtj_keepsConfig (b : Desig) (m : Addr) (s : State) : s.KeepsConfig (execBrtj b m s) :=
  s.bankEffective_keepsConfig b m .brtj fun t =>
    State.keepsConfig_ite s.boundsFault_keepsConfig (s.writeWord_keepsConfig t _ (by simp))

theorem execBjpl_keepsConfig (b : Desig) (m : Addr) (s : State) : s.KeepsConfig (execBjpl b m s) :=
  s.bankEffective_keepsConfig b m .bjpl fun _ => State.keepsConfig_ite s.boundsFault_keepsConfig (by simp)

theorem execConn_keepsConfig (x : BitVec 2) (c : BitVec 12) (n : Addr) (s : State) :
    s.KeepsConfig (execConn x c n s) :=
  s.onIo_keepsConfig x
    (State.keepsConfig_ite (s.jumpTo_keepsConfig false n)
      (State.keepsConfig_ite (by simp)
        (State.keepsConfig_ite ((State.boundsFault_keepsConfig _).trans rfl)
          ((State.jumpTo_keepsConfig _ false n).trans (s.connect_config x c)))))

theorem execExtf_keepsConfig (x : BitVec 2) (c : BitVec 12) (n : Addr) (s : State) :
    s.KeepsConfig (execExtf x c n s) :=
  s.onIo_keepsConfig x
    (State.keepsConfig_ite (s.jumpTo_keepsConfig false n)
      (State.keepsConfig_ite (by simp)
        (State.keepsConfig_ite ((State.boundsFault_keepsConfig _).trans (s.functionSent_config x))
          ((State.jumpTo_keepsConfig _ false n).trans (s.function_config x c)))))

theorem execCcwd_keepsConfig (x : BitVec 2) (n : Addr) (s : State) : s.KeepsConfig (execCcwd x n s) :=
  s.onIo_keepsConfig x (State.keepsConfig_ite (s.jumpTo_keepsConfig false n) (by simp))

@[simp] theorem State.keepsConfig_onChannel (s : State) (y : Addr) (k : BitVec 2 → State) :
    s.KeepsConfig (s.onChannel y k) ↔ (s.installed (codeChannel y) = true → (k (codeChannel y)).config = s.config) := by
  unfold State.onChannel
  split <;> simp [*]

theorem State.internalFunction_keepsConfig (s : State) (y : Addr) : s.KeepsConfig (s.internalFunction y) := by
  unfold State.internalFunction
  split <;> simp

theorem State.keepsConfig_thenNext24 {s : State} {r : Result} (h : s.KeepsConfig r) :
    s.KeepsConfig (Result.thenNext24 r) := by
  cases r with
  | next t => simpa [Result.thenNext24] using h
  | fault f => exact s.keepsConfig_fault f
  | refused x => exact s.keepsConfig_refused x

theorem execInf_keepsConfig (y : Addr) (s : State) : s.KeepsConfig (execInf y s) :=
  State.keepsConfig_ite s.illegal_keepsConfig (State.keepsConfig_thenNext24 (s.internalFunction_keepsConfig y))

theorem execAug_keepsConfig (y : Addr) (s : State) : s.KeepsConfig (execAug y s) := by
  unfold execAug
  split
  · simp
  · exact State.keepsConfig_ite (s.readOperand_keepsConfig _ (by simp)) (by simp)

theorem execSen_keepsConfig (y : Addr) (s : State) : s.KeepsConfig (execSen y s) := by
  unfold execSen
  split
  · simp
  · split <;> simp

/-! ## Every instruction -/

/-- No instruction changes the parameters. -/
theorem exec_keepsConfig (i : Instr) (s : State) : s.KeepsConfig (exec i s) := by
  unfold exec
  cases i with
  | iaq | ati | cis | cms | cpr => simp [execIaq, execAti, execCis, execCms, execCpr]
  | lda b m | lac b m | ldq b m | lqc b m | add b m | sub b m | mui b m | dvi b m | sst b m | scl b m | scm b m
  | ssu b m | ldl b m | adl b m | sbl b m | ssk b m => exact s.withOperand_keepsConfig b m (by simp)
  | fad b m | fsb b m | fmu b m | fdv b m => exact s.floating_keepsConfig _ b m _
  | enq b y | ena b y | ina b y => exact s.effective_keepsConfig b y (by simp)
  | eni b y | ini b y | sca b y | scq b y => exact s.resolve_keepsConfig b y (by simp)
  | liu b m | lil b m => exact s.resolve_keepsConfig b m (s.readOperand_keepsConfig m (by simp))
  | sta b m | stq b m | stl b m => exact s.storeAt_keepsConfig b m _
  | siu b m | sil b m => exact s.resolve_keepsConfig b m (s.storeField_keepsConfig m _ _ (by simp))
  | sau b m | sal b m => exact s.effective_keepsConfig b m fun a => s.storeField_keepsConfig a _ _ (by simp)
  | ars b k | qrs b k | lrs b k | als b k | qls b k | lls b k => exact s.shift_keepsConfig b k _ (by simp)
  | rad b m | rsb b m | rao b m | rso b m => exact s.replaceSum_keepsConfig b m _ _
  | eqs b m | ths b m | meq b m | mth b m => exact s.search_keepsConfig b m _
  | ssh b m => exact execSsh_keepsConfig b m s
  | isk b y => exact execIsk_keepsConfig b y s
  | ijp b m => exact execIjp_keepsConfig b m s
  | ajp _ m | qjp _ m | slj m | sj1 m | sj2 m | sj3 m => exact s.jumpIf_keepsConfig _ m
  | arj _ m | qrj _ m | rtj m | rj1 m | rj2 m | rj3 m => exact s.returnJumpIf_keepsConfig _ m
  | sls m | ss1 m | ss2 m | ss3 m => exact s.stopThen_keepsConfig _ (s.jumpTo_keepsConfig true m)
  | srj m | sr1 m | sr2 m | sr3 m => exact s.stopThen_keepsConfig _ (s.returnJump_keepsConfig m)
  | ldch b v m => exact execLdch_keepsConfig b v m s
  | stch b v m => exact execStch_keepsConfig b v m s
  | ubjp b m => exact s.bankEffective_keepsConfig b m .ubjp fun t => s.jumpTo_keepsConfig false t
  | brtj b m => exact execBrtj_keepsConfig b m s
  | bjpl b m => exact execBjpl_keepsConfig b m s
  | conn x c n => exact execConn_keepsConfig x c n s
  | extf x c n => exact execExtf_keepsConfig x c n s
  | begr x m n | begw x m n =>
    exact s.onIo_keepsConfig x
      (State.keepsConfig_ite (s.jumpTo_keepsConfig false n) (s.readOperand_keepsConfig m (by simp)))
  | copy x | clch x => exact s.onIo_keepsConfig x (by simp)
  | ccwd x n => exact execCcwd_keepsConfig x n s
  | inf y => exact execInf_keepsConfig y s
  | aug y => exact execAug_keepsConfig y s
  | sen y => exact execSen_keepsConfig y s
  | eub y | elb y => exact State.keepsConfig_ite s.illegal_keepsConfig (by simp)
  | illegal00 | illegal26 | illegal27 | illegal62 | illegal63 | illegal747 | illegal777 => exact s.illegal_keepsConfig
  | undefined772 | undefined774 => exact s.keepsConfig_fault _

/-! ## The program's turn -/

theorem State.fetched_keepsConfig (s : State) {k : State → Result} (hk : ∀ s1 : State, s1.KeepsConfig (k s1)) :
    s.KeepsConfig (s.fetched k) :=
  State.keepsConfig_ite
    (State.keepsConfig_ite ((State.cat1Interrupt_keepsConfig _ _ _).trans rfl) (by simp))
    ((hk _).trans s.loadStep_config)

theorem State.fetch_keepsConfig (s : State) {k : State → Result} (hk : ∀ s1 : State, s1.KeepsConfig (k s1)) :
    s.KeepsConfig (s.fetch k) :=
  State.keepsConfig_ite ((State.cat1Interrupt_keepsConfig _ _ _).trans rfl)
    (State.keepsConfig_ite (s.slot_keepsConfig fun s1 => s1.fetched_keepsConfig hk) (by simp))

theorem State.keepsConfig_stopped {s : State} {r : Result} (h : s.KeepsConfig r) :
    s.KeepsConfig (Result.stopped r) := by
  cases r with
  | next t => simpa [Result.stopped] using h
  | fault f => exact s.keepsConfig_fault f
  | refused x => exact s.keepsConfig_refused x

theorem State.afterStep_keepsConfig (s : State) {r : Result} (h : s.KeepsConfig r) :
    s.KeepsConfig (s.afterStep r) := by
  refine State.keepsConfig_ite ?_ h
  cases r with
  | next t =>
    have ht : t.config = s.config := (s.keepsConfig_next t).1 h
    have hread : t.KeepsConfig (t.fetch .next) := t.fetch_keepsConfig (by simp)
    exact State.keepsConfig_ite h
      (State.keepsConfig_ite ((State.keepsConfig_stopped hread).trans ht) ((s.keepsConfig_next _).2 ht))
  | fault f => exact s.keepsConfig_fault f
  | refused x => exact s.keepsConfig_refused x

theorem State.execute_keepsConfig (s : State) : s.KeepsConfig s.execute := by
  unfold State.execute
  split
  · exact s.afterStep_keepsConfig (exec_keepsConfig _ s)
  · split
    · exact s.afterStep_keepsConfig (exec_keepsConfig _ s)
    · exact s.keepsConfig_fault _

theorem State.sampleAndExecute_keepsConfig (s : State) : s.KeepsConfig s.sampleAndExecute :=
  State.keepsConfig_ite (s.cat1Interrupt_keepsConfig _ _) s.execute_keepsConfig

theorem State.sweep_keepsConfig (s : State) : s.KeepsConfig s.sweep :=
  State.keepsConfig_ite (by simp) (by simp)

/-- The program's turn does not change the parameters. -/
theorem State.program_keepsConfig (s : State) : s.KeepsConfig s.program := by
  unfold State.program
  refine State.keepsConfig_ite (by simp) (State.keepsConfig_ite (by simp) ?_)
  refine State.keepsConfig_ite s.sweep_keepsConfig (State.keepsConfig_ite ?_ ?_)
  · exact State.keepsConfig_stopped (s.fetch_keepsConfig (by simp))
  refine State.keepsConfig_ite (by simp) (State.keepsConfig_ite (by simp) ?_)
  exact State.keepsConfig_ite (s.fetch_keepsConfig State.sampleAndExecute_keepsConfig) s.execute_keepsConfig

/-! ## The operator's moves -/

theorem State.startAutoLoad_keepsConfig (s : State) : s.KeepsConfig s.startAutoLoad :=
  State.keepsConfig_ite (by simp) (by simp)

theorem State.go_keepsConfig (s : State) : s.KeepsConfig s.go :=
  have henter : s.KeepsConfig s.enterWord := State.keepsConfig_ite (by simp) (by simp)
  State.keepsConfig_ite (State.keepsConfig_ite henter (by simp)) (by simp)

theorem State.ifLive_keepsConfig (s : State) {r : Result} (h : s.KeepsConfig r) : s.KeepsConfig (s.ifLive r) :=
  State.keepsConfig_ite h (by simp)

/-- No move changes the parameters, whoever makes it (R10). -/
theorem Move.perform_keepsConfig (m : Move) (s : State) : s.KeepsConfig (m.perform s) := by
  cases m with
  | compute => exact s.program_keepsConfig
  | event e => exact e.perform_keepsConfig s
  | setSwitches | systemActive => simp [Move.perform]
  | go => exact s.ifLive_keepsConfig s.go_keepsConfig
  | autoLoad => exact s.ifLive_keepsConfig s.startAutoLoad_keepsConfig
  | testClear | testGo | testStop | stop | restart | internalClear | externalClear | panelWrite =>
    exact s.ifLive_keepsConfig (by simp)

theorem step_keepsConfig (s : State) : s.KeepsConfig (step s) := by
  unfold step State.nextMove
  split
  · exact s.program_keepsConfig
  · exact (Move.perform_keepsConfig _ _).trans rfl

/-- Settles O58: every move keeps the parameters, the program's turn among them. -/
theorem configKept : Obligations.ConfigKept :=
  fun s t h => step_keepsConfig s t h

end Sys2Proof.Machine

/-! The Interrupt register and its two selected sources. First the bits of the constants and of one channel's share of
the register, then a bit of the whole register, from which each clause is read off. -/

namespace Sys2Proof.Machine

/-! ## Bits of the Interrupt register -/

@[simp] theorem getLsbD_bit48 (i j : Nat) : (bit48 i).getLsbD j = (decide (i < 48) && decide (i = j)) := by
  simp [bit48, BitVec.getLsbD_twoPow]

/-- Channel x drives bits 20 + x and 30 + x, and only when it exists (R401, R419). -/
theorem State.getLsbD_channelIr (s : State) (x : BitVec 2) (j : Nat) :
    (s.channelIr x).getLsbD j = (s.installed x && (((s.channel x).parErr && decide (20 + x.toNat = j))
      || (decide (s.lines x ≠ 0) && decide (30 + x.toNat = j)))) := by
  have hx := x.isLt
  have h20 : 20 + x.toNat < 48 := by omega
  have h30 : 30 + x.toNat < 48 := by omega
  unfold State.channelIr
  cases s.installed x
  · simp
  · cases (s.channel x).parErr <;> by_cases hl : s.lines x = 0#8 <;> simp [hl, h20, h30]

/-- A bit of the register comes from its flip-flop or from one of the channels (R29). -/
theorem State.getLsbD_ir (s : State) (j : Nat) :
    s.ir.getLsbD j = ((s.irff.getLsbD j && flipFlopBits.getLsbD j) || (s.channelIr 0).getLsbD j
      || (s.channelIr 1).getLsbD j || (s.channelIr 2).getLsbD j || (s.channelIr 3).getLsbD j) := by
  simp [State.ir]

/-- A channel leaves the bits of every other channel alone. -/
theorem State.getLsbD_channelIr_other (s : State) {x y : BitVec 2} (hy : y ≠ x) {n : Nat} (hn : n = 20 ∨ n = 30) :
    (s.channelIr y).getLsbD (n + x.toNat) = false := by
  have hx := x.isLt
  have hylt := y.isLt
  have hne : y.toNat ≠ x.toNat := fun h => hy (BitVec.eq_of_toNat_eq h)
  have h20 : ¬ 20 + y.toNat = n + x.toNat := by omega
  have h30 : ¬ 30 + y.toNat = n + x.toNat := by omega
  rw [State.getLsbD_channelIr, decide_eq_false h20, decide_eq_false h30]
  simp

/-- A channel's bit in the register is that channel's alone: no flip-flop stands there. -/
theorem State.getLsbD_ir_channel (s : State) (x : BitVec 2) {n : Nat} (hn : n = 20 ∨ n = 30) :
    s.ir.getLsbD (n + x.toNat) = (s.channelIr x).getLsbD (n + x.toNat) := by
  have hflip : flipFlopBits.getLsbD (n + x.toNat) = false := by
    rcases hn with rfl | rfl <;> revert x <;> decide
  have hother : ∀ y, y ≠ x → (s.channelIr y).getLsbD (n + x.toNat) = false :=
    fun _ hy => s.getLsbD_channelIr_other hy hn
  have hx : ∀ x : BitVec 2, x = 0 ∨ x = 1 ∨ x = 2 ∨ x = 3 := by decide
  rw [State.getLsbD_ir, hflip]
  rcases hx x with rfl | rfl | rfl | rfl <;>
    simp (disch := decide) only [hother, Bool.and_false, Bool.or_false, Bool.false_or]

theorem State.ir_parityBit (s : State) (x : BitVec 2) :
    s.ir.getLsbD (20 + x.toNat) = (s.installed x && (s.channel x).parErr) := by
  rw [s.getLsbD_ir_channel x (.inl rfl), State.getLsbD_channelIr]
  simp

theorem State.ir_lineBit (s : State) (x : BitVec 2) :
    s.ir.getLsbD (30 + x.toNat) = (s.installed x && decide (s.lines x ≠ 0)) := by
  rw [s.getLsbD_ir_channel x (.inr rfl), State.getLsbD_channelIr]
  simp

/-- Where there is a flip-flop no channel drives the bit. -/
theorem State.ir_flipFlop (s : State) (j : Nat) (hj : j ∈ [1, 2, 3, 4, 5, 10, 11, 12, 13, 42, 43, 44, 45, 46]) :
    s.ir.getLsbD j = s.irff.getLsbD j := by
  have hbit : flipFlopBits.getLsbD j = true := by revert j; decide
  have hout : ∀ x : BitVec 2, (s.channelIr x).getLsbD j = false := by
    intro x
    have hx := x.isLt
    have hrange : j < 20 ∨ 34 ≤ j := by revert j; decide
    have h20 : ¬ 20 + x.toNat = j := by omega
    have h30 : ¬ 30 + x.toNat = j := by omega
    simp [State.getLsbD_channelIr, h20, h30]
  simp [State.getLsbD_ir, hbit, hout]

/-! ## The selected sources -/

/-- At an assigned bit MASK reads as it was set (R30). -/
theorem State.selected_assigned (s : State) (i : Nat) (hi : assignedBits.getLsbD i = true) :
    s.selected i = s.mask.getLsbD i := by
  simp [State.selected, State.maskView, hi]

/-- Settles O59: the channels' bits and the flip-flops of the register, then the tick and the switch. -/
theorem interruptSources : Obligations.InterruptSources := by
  intro s x
  refine ⟨s.ir_parityBit x, s.ir_lineBit x, s.ir_flipFlop, ?_, ?_⟩
  · rw [← s.selected_assigned 44 (by decide)]
    rfl
  · rw [← s.selected_assigned 43 (by decide)]
    rfl

end Sys2Proof.Machine

/-! What every instruction does to the fields that the invariant of a step (R45, R60) and the bounds registers (R37) are
about. One relation between states, `State.Evolves`, says it for all of them, so that the instructions are gone through
once: `exec_effect` lists what an instruction can do, and both statements are read off from it. The relation is kept by
each function from states to states, then by each operation that answers a result and goes on with a continuation, in
the order of the model's files. -/

namespace Sys2Proof.Machine

/-! ## The relation -/

/-- The fields of which an instruction keeps the values or the form, whatever happens to A, Q, the channels and the
rest. -/
def State.frame (s : State) : Memory × BitVec 8 × BitVec 8 × Bool × AugT × Half × Bool :=
  (s.memory, s.bl, s.bu, s.augPending, s.augT, s.half, s.needRni)

/-- The part of the frame that the end of an instruction leaves as it is. -/
def State.kept (s : State) : Memory × BitVec 8 × BitVec 8 := (s.memory, s.bl, s.bu)

/-- No augment is pending (R45). -/
def State.Unaugmented (s : State) : Prop := s.augPending = false ∧ s.augT = AugT.zero

/-- From s the machine comes to t with its bounds registers as they were, by stores that keep the canonical form of the
memory; a pending augment stands where it stood, or is used up. -/
structure State.Evolves (s t : State) : Prop where
  canonical : Memory.wf s.memory = true → Memory.wf t.memory = true
  lowerBound : t.bl = s.bl
  upperBound : t.bu = s.bu
  window : t.Unaugmented
    ∨ (t.augPending = s.augPending ∧ t.augT = s.augT ∧ t.half = s.half ∧ t.needRni = s.needRni)

theorem State.evolves_self (s : State) : s.Evolves s := ⟨id, rfl, rfl, .inr ⟨rfl, rfl, rfl, rfl⟩⟩

/-- An evolution keeps the invariant. -/
theorem State.Evolves.sound {s t : State} (h : s.Evolves t) (hs : s.Sound) : t.Sound := by
  obtain ⟨hpending, hzero⟩ | ⟨hpending, haug, hhalf, hrni⟩ := h.window
  · exact .of_clear (h.canonical hs.1) hpending hzero
  · exact hs.congr (h.canonical hs.1) hpending haug hhalf hrni

/-- No augment begins in an evolution. -/
theorem State.Evolves.augPending_eq_false {s t : State} (h : s.Evolves t) (hs : s.augPending = false) :
    t.augPending = false := by
  obtain ⟨hpending, -⟩ | ⟨hpending, -⟩ := h.window
  · exact hpending
  · exact hpending.trans hs

section
variable {s t u : State}

theorem State.Evolves.trans (h : s.Evolves t) (h' : t.Evolves u) : s.Evolves u where
  canonical hm := h'.canonical (h.canonical hm)
  lowerBound := h'.lowerBound.trans h.lowerBound
  upperBound := h'.upperBound.trans h.upperBound
  window := by
    obtain hu | ⟨hpending, haug, hhalf, hrni⟩ := h'.window
    · exact .inl hu
    · unfold State.Unaugmented
      rw [hpending, haug, hhalf, hrni]
      exact h.window

/-- A write to fields outside the frame. -/
theorem State.Evolves.write (h : s.Evolves t) (hu : u.frame = t.frame) : s.Evolves u := by
  simp only [State.frame, Prod.mk.injEq] at hu
  obtain ⟨hmem, hbl, hbu, hwindow⟩ := hu
  exact h.trans ⟨fun hm => hmem ▸ hm, hbl, hbu, .inr hwindow⟩

/-- The end of an instruction. -/
theorem State.Evolves.finished (h : s.Evolves t) (hu : u.kept = t.kept) (ha : u.Unaugmented) : s.Evolves u := by
  simp only [State.kept, Prod.mk.injEq] at hu
  obtain ⟨hmem, hbl, hbu⟩ := hu
  exact h.trans ⟨fun hm => hmem ▸ hm, hbl, hbu, .inl ha⟩

/-- A store of a whole word. -/
theorem State.Evolves.setWord (h : s.Evolves t) (a : Addr) (w : Word) :
    s.Evolves { t with memory := Memory.setWord t.memory a w } :=
  h.trans ⟨Memory.wf_setWord _ a w, rfl, rfl, .inr ⟨rfl, rfl, rfl, rfl⟩⟩

/-- A store of a field. -/
theorem State.Evolves.setField {n : Nat} (h : s.Evolves t) (a : Addr) (lo : Nat) (v : BitVec n) :
    s.Evolves { t with memory := Memory.setField t.memory a lo v } :=
  h.setWord a _

theorem State.Evolves.ite {c : Prop} [Decidable c] (ht : s.Evolves t) (hu : s.Evolves u) :
    s.Evolves (if c then t else u) := by
  split
  · exact ht
  · exact hu

/-! ## Registers and the ends of an instruction -/

theorem State.Evolves.setIr (h : s.Evolves t) (i : Nat) : s.Evolves (t.setIr i) := h.write rfl

theorem State.Evolves.setIrIf (h : s.Evolves t) (i : Nat) (c : Bool) : s.Evolves (t.setIrIf i c) :=
  .ite (h.setIr i) h

theorem State.Evolves.freeIr (h : s.Evolves t) (i : Nat) : s.Evolves (t.freeIr i) :=
  .ite (h.write rfl) (h.write rfl)

theorem State.Evolves.addToA (h : s.Evolves t) (x : Word) : s.Evolves (t.addToA x) :=
  (h.setIrIf 3 _).write rfl

theorem State.Evolves.advance (h : s.Evolves t) : s.Evolves t.advance := h.finished rfl ⟨rfl, rfl⟩

theorem State.Evolves.next24 (h : s.Evolves t) : s.Evolves t.next24 :=
  h.finished (by simp [State.kept]) ⟨t.next24_augPending, t.next24_augT⟩

theorem State.Evolves.skipIf (h : s.Evolves t) (c : Bool) : s.Evolves (t.skipIf c) := .ite h.advance h.next24

theorem State.Evolves.land (h : s.Evolves t) (m : Addr) (own : Half) : s.Evolves (t.land m own) :=
  h.finished rfl ⟨rfl, rfl⟩

theorem State.Evolves.clearMode (h : s.Evolves t) (c : Category) : s.Evolves (t.clearMode c) :=
  h.write (by cases c <;> rfl)

theorem State.Evolves.freeLanding (h : s.Evolves t) (c : Category) (m : Addr) (own : Half) :
    s.Evolves (t.freeLanding c m own) :=
  have hdrawn : s.Evolves t.drawBit.2.drawBit.2 := h.write rfl
  .ite ((hdrawn.land m _).clearMode c) (hdrawn.land m _)

theorem State.Evolves.transfer (h : s.Evolves t) (plain : Bool) (m : Addr) (own : Half) :
    s.Evolves (t.transfer plain m own) := by
  unfold State.transfer
  split
  · exact h.land m own
  · split
    · exact .ite ((h.land m _).clearMode _) (h.freeLanding _ m own)
    · exact .ite (h.freeLanding _ m own) (h.land m own)

theorem State.Evolves.arrive (h : s.Evolves t) (f : Addr) : s.Evolves ((t.arrive f).entryParity f) :=
  have harrive : s.Evolves (t.arrive f) := h.finished rfl ⟨rfl, rfl⟩
  .ite (.ite (harrive.write rfl) (harrive.write rfl)) harrive

theorem State.Evolves.cat1Entry (h : s.Evolves t) (pn : Addr) (hn : Half) : s.Evolves (t.cat1Entry pn hn) :=
  have hmode : s.Evolves { t with mode1 := true, exit1 := hn } := h.write rfl
  (hmode.setField _ 24 pn).arrive _

/-! ## Channels and the typewriter -/

theorem State.Evolves.setChannel (h : s.Evolves t) (x : BitVec 2) (c : Channel) : s.Evolves (t.setChannel x c) :=
  h.write rfl

theorem State.Evolves.setTypewriter (h : s.Evolves t) (w : Typewriter) : s.Evolves { t with typewriter := w } :=
  h.write rfl

theorem State.Evolves.endWait (h : s.Evolves t) : s.Evolves t.endWait := h.finished rfl ⟨rfl, rfl⟩

theorem State.Evolves.wentInactive (h : s.Evolves t) (x : BitVec 2) : s.Evolves (t.wentInactive x) :=
  .ite h.endWait (.ite (h.finished rfl ⟨rfl, rfl⟩) h)

theorem State.Evolves.lowerCase (h : s.Evolves t) (x : BitVec 2) : s.Evolves (t.lowerCase x) :=
  .ite (h.write rfl) h

theorem State.Evolves.deactivate (h : s.Evolves t) (x : BitVec 2) : s.Evolves (t.deactivate x) :=
  (((h.lowerCase x).setChannel x _).setIr _).wentInactive x

theorem State.Evolves.endIfDone (h : s.Evolves t) (x : BitVec 2) : s.Evolves (t.endIfDone x) :=
  .ite (.ite (h.setChannel x _).endWait (h.deactivate x)) h

theorem State.Evolves.channelStore (h : s.Evolves t) (x : BitVec 2) (w : Word) : s.Evolves (t.channelStore x w) :=
  (h.setWord _ w).setChannel x _

theorem State.Evolves.takeByte (h : s.Evolves t) (x : BitVec 2) (byte : BitVec 12) (bad : Bool) :
    s.Evolves (t.takeByte x byte bad) :=
  .ite (h.write rfl) h

theorem State.Evolves.presentWord (h : s.Evolves t) (x : BitVec 2) : s.Evolves (t.presentWord x) :=
  .ite (h.write rfl) h

theorem State.Evolves.lineEvent (h : s.Evolves t) (x : BitVec 2) (e : BitVec 3) (level : Bool) :
    s.Evolves (t.lineEvent x e level) :=
  .ite h (.ite (h.write rfl) (h.write rfl))

theorem State.Evolves.corruptWord (h : s.Evolves t) (a : Addr) (w : Word) : s.Evolves (t.corruptWord a w) :=
  have hmark : s.Evolves (t.markParity a true) := h.write rfl
  .ite (hmark.setWord a w) h

theorem State.Evolves.clearChannel (h : s.Evolves t) (x : BitVec 2) : s.Evolves (t.clearChannel x) :=
  have hfree : s.Evolves (if (t.channel x).active then t.freeIr (10 + x.toNat) else t) := .ite (h.freeIr _) h
  have hcut : s.Evolves ((if (t.channel x).active then t.freeIr (10 + x.toNat) else t).cutWrite x) :=
    .ite (hfree.lowerCase x) hfree
  .ite (hcut.write rfl) (hcut.write rfl)

/-! ## References and input/output -/

theorem State.Evolves.noteRead (h : s.Evolves t) (a : Addr) : s.Evolves (t.noteRead a) :=
  have hnote : s.Evolves (t.noteOperand a) := h.write rfl
  hnote.setIrIf 45 _

theorem State.Evolves.connect (h : s.Evolves t) (x : BitVec 2) (c : BitVec 12) : s.Evolves (t.connect x c) :=
  have hanswer : s.Evolves t.takeAnswer.2 := h.write rfl
  .ite ((hanswer.setChannel x _).setTypewriter _) (hanswer.setChannel x _)

theorem State.Evolves.function (h : s.Evolves t) (x : BitVec 2) (c : BitVec 12) : s.Evolves (t.function x c) :=
  have hanswer : s.Evolves t.takeAnswer.2 := h.write rfl
  .ite h (.ite hanswer (.ite ((hanswer.setChannel x _).setTypewriter _) (.ite (hanswer.write rfl) hanswer)))

theorem State.Evolves.functionSent (h : s.Evolves t) (x : BitVec 2) : s.Evolves (t.functionSent x) :=
  .ite h (h.write rfl)

theorem State.Evolves.beginOperation (h : s.Evolves t) (x : BitVec 2) (d : Direction) (w : Word) :
    s.Evolves (t.beginOperation x d w) :=
  have hbegun : s.Evolves (t.setChannel x ((t.channel x).begin d w)) := h.write rfl
  have hadmit : s.Evolves ((t.setChannel x ((t.channel x).begin d w)).admitTypewriter x) :=
    .ite (hbegun.write rfl) hbegun
  .ite hbegun (hadmit.lowerCase x)

/-! ## What the instructions do to the registers -/

theorem State.Evolves.divide (h : s.Evolves t) (x : Word) : s.Evolves (t.divide x) :=
  .ite (h.write rfl) (h.write rfl)

theorem State.Evolves.increaseA (h : s.Evolves t) (x : Word) : s.Evolves (t.increaseA x) :=
  (h.setIrIf 3 _).write rfl

theorem State.Evolves.applyFp (h : s.Evolves t) (r : FpResult) : s.Evolves (t.applyFp r) :=
  (((h.setIrIf 2 _).setIrIf 4 _).setIrIf 5 _).write rfl

theorem State.Evolves.searchEnd (h : s.Evolves t) (b : Desig) (found : Bool) : s.Evolves (t.searchEnd b found) :=
  .ite (h.skipIf true) (.ite h.next24 (h.write rfl))

end

/-! ## Results -/

/-- The next state of a result, if there is one, has evolved from s. -/
def State.Leads (s : State) (r : Result) : Prop := Result.Gives s.Evolves r

theorem State.leads_next {s t : State} (h : s.Evolves t) : s.Leads (.next t) := Result.gives_next h

theorem State.leads_fault (s : State) (f : Fault) : s.Leads (.fault f) := Result.gives_fault f

theorem State.leads_refused (s : State) (x : Refusal) : s.Leads (.refused x) := Result.gives_refused x

@[simp] theorem Result.gives_next_iff {P : State → Prop} {t : State} : Result.Gives P (.next t) ↔ P t :=
  ⟨fun h => h t rfl, Result.gives_next⟩

/-- A choice gives what both branches give. -/
theorem Result.gives_ite {P : State → Prop} {c : Prop} [Decidable c] {r1 r2 : Result} (h1 : Result.Gives P r1)
    (h2 : Result.Gives P r2) : Result.Gives P (if c then r1 else r2) := by
  split
  · exact h1
  · exact h2

theorem State.leads_ite {s : State} {c : Prop} [Decidable c] {r1 r2 : Result} (h1 : s.Leads r1) (h2 : s.Leads r2) :
    s.Leads (if c then r1 else r2) :=
  Result.gives_ite h1 h2

/-! ## Events -/

section
variable {s t : State}

theorem State.Evolves.inputWord (h : s.Evolves t) (x : BitVec 2) (w : Word) : s.Leads (t.inputWord x w) :=
  State.leads_ite (State.leads_next ((h.channelStore x w).endIfDone x)) (s.leads_fault _)

theorem State.Evolves.storeAndEnd (h : s.Evolves t) (x : BitVec 2) (w : Word) : s.Leads (t.storeAndEnd x w) :=
  State.leads_ite (State.leads_next ((h.channelStore x w).deactivate x)) (s.leads_fault _)

theorem State.Evolves.keyWord (h : s.Evolves t) (x : BitVec 2) (code : BitVec 6) (bad halt : Bool) :
    s.Leads (t.keyWord x code bad halt) :=
  ((h.setTypewriter _).setChannel x _).inputWord x _

end

theorem State.byteIn_leads (s : State) (x : BitVec 2) (byte : BitVec 12) (reversed bad halt : Bool) :
    s.Leads (s.byteIn x byte reversed bad halt) :=
  have hbyte : s.Evolves (s.setChannel x (s.withByte x byte reversed bad halt)) := s.evolves_self.setChannel x _
  State.leads_ite (State.leads_ite (State.leads_next hbyte) (hbyte.inputWord x _)) (State.leads_next s.evolves_self)

theorem State.wordOut_leads (s : State) (x : BitVec 2) (stepNow : Bool) : s.Leads (s.wordOut x stepNow) :=
  have hword := (s.evolves_self.presentWord x).setIrIf 45 (decide ((s.channel x).addr ∈ s.badParity))
  State.leads_ite (State.leads_ite (State.leads_next (hword.setChannel x _)) (s.leads_fault _))
    (State.leads_next s.evolves_self)

theorem State.byteOut_leads (s : State) (x : BitVec 2) (bad halt : Bool) : s.Leads (s.byteOut x bad halt) :=
  have htaken := (s.evolves_self.takeByte x (s.channel x).outByte bad).setChannel x (s.byteSent x bad halt)
  State.leads_ite (State.leads_ite (State.leads_next (htaken.endIfDone x)) (State.leads_next htaken))
    (State.leads_next s.evolves_self)

theorem State.endOfRecord_leads (s : State) (x : BitVec 2) : s.Leads (s.endOfRecord x) :=
  have hdrawn : s.Evolves s.drawWord.2 := s.evolves_self.write rfl
  State.leads_ite
    (State.leads_ite (State.leads_next (s.evolves_self.deactivate x))
      (State.leads_ite (hdrawn.storeAndEnd x _) (s.evolves_self.storeAndEnd x _)))
    (State.leads_next s.evolves_self)

theorem State.keyEvent_leads (s : State) (code : BitVec 6) (bad halt : Bool) : s.Leads (s.keyEvent code bad halt) :=
  have htyped : ∀ t : Typewriter, s.Evolves { s with typewriter := t } := fun _ => s.evolves_self.write rfl
  State.leads_ite (State.leads_next s.evolves_self)
    (State.leads_ite ((htyped _).keyWord _ code bad halt)
      (State.leads_ite (State.leads_next (htyped _)) (State.leads_next (htyped _))))

theorem State.typewriterEnd_leads (s : State) : s.Leads s.typewriterEnd :=
  State.leads_ite (s.evolves_self.storeAndEnd _ _) (State.leads_next s.evolves_self)

/-- Every event is an evolution. -/
theorem Async.perform_leads (e : Async) (s : State) : s.Leads (e.perform s) := by
  have hs := s.evolves_self
  cases e with
  | byteIn x byte reversed bad halt => exact s.byteIn_leads x byte reversed bad halt
  | wordOut x stepNow => exact s.wordOut_leads x stepNow
  | byteOut x bad halt => exact s.byteOut_leads x bad halt
  | endOfRecord x => exact s.endOfRecord_leads x
  | line x e level => exact State.leads_next (hs.lineEvent x e level)
  | status x v => exact State.leads_next (hs.setChannel x _)
  | tick | manualInterrupt => exact State.leads_next (.ite (hs.setIr _) hs)
  | parity a bad => exact State.leads_next (hs.write rfl)
  | corrupt a w => exact State.leads_next (hs.corruptWord a w)
  | key code bad halt => exact s.keyEvent_leads code bad halt
  | typewriterEndOfRecord => exact s.typewriterEnd_leads
  | typewriterEndOfLine | typewriterTypeParity | typewriterReady =>
    exact State.leads_next (.ite (hs.write rfl) hs)

/-! ## Storage references -/

/-- What follows a list of events finds a state that has evolved. -/
theorem State.gives_runEvents {P : State → Prop} (es : List Async) (s : State) {k : State → Result}
    (hk : ∀ t, s.Evolves t → Result.Gives P (k t)) : Result.Gives P (s.runEvents es k) := by
  induction es generalizing s with
  | nil => exact hk s s.evolves_self
  | cons e rest ih =>
    simp only [State.runEvents]
    cases hp : e.perform s with
    | next s1 => exact ih s1 fun t ht => hk t ((e.perform_leads s s1 hp).trans ht)
    | fault f => exact Result.gives_fault f
    | refused x => exact Result.gives_refused x

/-- So does a storage reference, after the events before it (R79). -/
theorem State.gives_slot {P : State → Prop} (s : State) {k : State → Result}
    (hk : ∀ t, s.Evolves t → Result.Gives P (k t)) : Result.Gives P (s.slot k) := by
  unfold State.slot
  split
  · exact hk s s.evolves_self
  next es rest _ =>
    have hrest : s.Evolves { s with slots := rest } := s.evolves_self.write rfl
    exact State.gives_runEvents es _ fun t ht => hk t (hrest.trans ht)

section
variable {s t : State}

theorem State.Evolves.slot (h : s.Evolves t) {k : State → Result} (hk : ∀ u, s.Evolves u → s.Leads (k u)) :
    s.Leads (t.slot k) :=
  t.gives_slot fun u hu => hk u (h.trans hu)

theorem State.Evolves.cat1Interrupt (h : s.Evolves t) (pn : Addr) (hn : Half) : s.Leads (t.cat1Interrupt pn hn) :=
  h.slot fun _ hu => State.leads_next (hu.cat1Entry pn hn)

theorem State.Evolves.boundsFault (h : s.Evolves t) : s.Leads t.boundsFault := (h.setIr 42).cat1Interrupt _ _

theorem State.Evolves.trapJump (h : s.Evolves t) (f ret : Addr) : s.Leads (t.trapJump f ret) :=
  h.slot fun _ hu => (hu.setField f 24 ret).slot fun _ hv => State.leads_next (hv.arrive f)

theorem State.Evolves.illegal (h : s.Evolves t) : s.Leads t.illegal :=
  have hmode : s.Evolves { t with mode3 := true, exit3 := t.resumeHalf } := h.write rfl
  hmode.trapJump _ _

theorem State.Evolves.jumpTo (h : s.Evolves t) (plain : Bool) (m : Addr) : s.Leads (t.jumpTo plain m) :=
  State.leads_ite h.boundsFault (State.leads_next (h.transfer plain m .upper))

theorem State.Evolves.readOperand (h : s.Evolves t) (a : Addr) {k : State → Word → Result}
    (hk : ∀ u w, s.Evolves u → s.Leads (k u w)) : s.Leads (t.readOperand a k) :=
  State.leads_ite (h.slot fun _ hu => hk _ _ (hu.noteRead a)) (s.leads_fault _)

theorem State.Evolves.writeWord (h : s.Evolves t) (a : Addr) (w : Word) {k : State → Result}
    (hk : ∀ u, s.Evolves u → s.Leads (k u)) : s.Leads (t.writeWord a w k) :=
  State.leads_ite (h.slot fun _ hu => hk _ ((hu.setWord a w).write rfl)) (s.leads_fault _)

theorem State.Evolves.writeField {n : Nat} (h : s.Evolves t) (a : Addr) (lo : Nat) (v : BitVec n)
    {k : State → Result} (hk : ∀ u, s.Evolves u → s.Leads (k u)) : s.Leads (t.writeField a lo v k) :=
  State.leads_ite (h.slot fun _ hu => hk _ ((hu.setField a lo v).write rfl)) (s.leads_fault _)

end

section
variable {s : State}

theorem State.storeWord_leads (a : Addr) (w : Word) {k : State → Result} (hk : ∀ u, s.Evolves u → s.Leads (k u)) :
    s.Leads (s.storeWord a w k) :=
  State.leads_ite s.evolves_self.boundsFault (s.evolves_self.writeWord a w hk)

theorem State.storeField_leads {n : Nat} (a : Addr) (lo : Nat) (v : BitVec n) {k : State → Result}
    (hk : ∀ u, s.Evolves u → s.Leads (k u)) : s.Leads (s.storeField a lo v k) :=
  State.leads_ite s.evolves_self.boundsFault (s.evolves_self.writeField a lo v hk)

theorem State.replace_leads (a : Addr) {f : State → Word → State × Word} {k : State → Result}
    (hf : ∀ u w, s.Evolves u → s.Evolves (f u w).1) (hk : ∀ u, s.Evolves u → s.Leads (k u)) :
    s.Leads (s.replace a f k) :=
  State.leads_ite s.evolves_self.boundsFault
    (s.evolves_self.readOperand a fun u w hu => (hf u w hu).writeWord a _ hk)

theorem State.returnJump_leads (s : State) (m : Addr) : s.Leads (s.returnJump m) :=
  State.storeField_leads m 24 _ fun _ hu => State.leads_next (hu.transfer false m .lower)

/-! ## Operand forms -/

theorem State.resolve_leads (b : Desig) (m : Addr) {k : Result} (hk : s.Leads k) : s.Leads (s.resolve b m k) :=
  State.leads_ite (s.evolves_self.readOperand m fun _ _ hu => State.leads_next (hu.write rfl)) hk

theorem State.effective_leads (b : Desig) (m : Addr) {k : Addr → Result} (hk : ∀ a, s.Leads (k a)) :
    s.Leads (s.effective b m k) :=
  State.resolve_leads b m (hk _)

/-- An instruction that reads its operand and then computes. -/
theorem State.withOperand_leads (b : Desig) (m : Addr) {f : State → Word → State}
    (hf : ∀ u w, s.Evolves u → s.Evolves (f u w)) : s.Leads (s.withOperand b m fun u w => .next (f u w)) :=
  State.effective_leads b m fun a =>
    s.evolves_self.readOperand a fun u w hu => State.leads_next (hf u w hu)

theorem State.storeAt_leads (b : Desig) (m : Addr) (w : Word) : s.Leads (s.storeAt b m w) :=
  State.effective_leads b m fun a => State.storeWord_leads a w fun _ hu => State.leads_next hu.next24

theorem State.character_leads (b v : Desig) (m : Addr) {k : Addr → Nat → Result} (hk : ∀ a p, s.Leads (k a p)) :
    s.Leads (s.character b v m k) :=
  State.leads_ite (s.leads_fault _)
    (State.leads_ite
      (State.leads_ite (s.evolves_self.readOperand m fun _ _ hu => State.leads_next (hu.write rfl)) (hk _ _))
      s.evolves_self.illegal)

theorem State.bankEffective_leads (b : Desig) (m : Addr) (jump : Desig → Addr → Instr) {k : Addr → Result}
    (hk : ∀ a, s.Leads (k a)) : s.Leads (s.bankEffective b m jump k) :=
  State.leads_ite (s.evolves_self.readOperand m fun _ _ hu => State.leads_next (hu.write rfl)) (hk _)

theorem State.onIo_leads (x : BitVec 2) {k : Result} (hk : s.Leads k) : s.Leads (s.onIo x k) :=
  State.leads_ite s.evolves_self.illegal (State.leads_ite hk (s.leads_fault _))

/-! ## Families of instructions -/

theorem State.floating_leads (low : BitVec 2) (b : Desig) (m : Addr) (f : Word → Word → AugT → FpResult) :
    s.Leads (s.floating low b m f) :=
  have hmode : s.Evolves { s with mode2 := true, exit2 := s.resumeHalf } := s.evolves_self.write rfl
  State.leads_ite (State.withOperand_leads b m fun _ _ hu => (hu.applyFp _).next24) (hmode.trapJump _ _)

theorem State.shift_leads (b : Desig) (k : Addr) (limit : Nat) {f : Nat → State} (hf : ∀ n, s.Evolves (f n)) :
    s.Leads (s.shift b k limit f) :=
  State.effective_leads b k fun _ => State.leads_next (.next24 (.ite (s.evolves_self.setIr 1) (hf _)))

theorem State.replaceSum_leads (b : Desig) (m : Addr) (x y : State → Word → Word) :
    s.Leads (s.replaceSum b m x y) :=
  State.effective_leads b m fun a =>
    State.replace_leads a (fun _ _ hu => (hu.setIrIf 3 _).write rfl) fun _ hv => State.leads_next hv.next24

theorem State.search_leads (b : Desig) (m : Addr) (hit : State → Word → Bool) : s.Leads (s.search b m hit) :=
  have hcount : s.Evolves (s.setB b (s.b b - 1)) := s.evolves_self.write rfl
  State.resolve_leads b m
    (State.leads_ite (s.evolves_self.readOperand m fun _ _ hu => State.leads_next (hu.skipIf _))
      (State.leads_ite (State.leads_next s.evolves_self.next24)
        (hcount.readOperand _ fun _ _ hu => State.leads_next (hu.searchEnd b _))))

theorem State.jumpIf_leads (c : Bool) (m : Addr) : s.Leads (s.jumpIf c m) :=
  State.leads_ite (s.evolves_self.jumpTo true m) (State.leads_next s.evolves_self.next24)

theorem State.returnJumpIf_leads (c : Bool) (m : Addr) : s.Leads (s.returnJumpIf c m) :=
  State.leads_ite (s.returnJump_leads m) (State.leads_next s.evolves_self.next24)

theorem State.stopThen_leads (c : Bool) {jump : Result} (hj : s.Leads jump) : s.Leads (s.stopThen c jump) :=
  State.leads_ite (State.leads_next (s.evolves_self.write rfl)) hj

end

/-! ## Instructions with a shape of their own -/

theorem execIsk_leads (b : Desig) (y : Addr) (s : State) : s.Leads (execIsk b y s) :=
  have hindex : ∀ v, s.Evolves (s.setB b v) := fun _ => s.evolves_self.write rfl
  State.resolve_leads b y
    (State.leads_ite (State.leads_next ((hindex 0).skipIf true)) (State.leads_next (hindex _).next24))

theorem execIjp_leads (b : Desig) (m : Addr) (s : State) : s.Leads (execIjp b m s) :=
  have hindex : s.Evolves (s.setB b (s.b b - 1)) := s.evolves_self.write rfl
  State.resolve_leads b m
    (State.leads_ite (State.leads_next s.evolves_self.next24)
      (State.leads_ite s.evolves_self.boundsFault (State.leads_next (hindex.transfer true m .upper))))

theorem execSsh_leads (b : Desig) (m : Addr) (s : State) : s.Leads (execSsh b m s) :=
  State.effective_leads b m fun a =>
    State.leads_ite s.evolves_self.boundsFault
      (s.evolves_self.readOperand a fun _ _ hu =>
        hu.writeWord a _ fun _ hv => State.leads_next (hv.skipIf _))

theorem execLdch_leads (b v : Desig) (m : Addr) (s : State) : s.Leads (execLdch b v m s) :=
  State.character_leads b v m fun t _ =>
    s.evolves_self.readOperand t fun _ _ hu => State.leads_next (.advance (hu.write rfl))

theorem execStch_leads (b v : Desig) (m : Addr) (s : State) : s.Leads (execStch b v m s) :=
  State.character_leads b v m fun t p =>
    State.leads_ite s.evolves_self.boundsFault
      (s.evolves_self.readOperand t fun _ _ hu =>
        hu.writeField t p _ fun _ hv => State.leads_next hv.advance)

theorem execBrtj_leads (b : Desig) (m : Addr) (s : State) : s.Leads (execBrtj b m s) :=
  State.bankEffective_leads b m .brtj fun t =>
    State.leads_ite s.evolves_self.boundsFault
      (s.evolves_self.writeWord t _ fun _ hu => State.leads_next (hu.transfer false _ .upper))

theorem execBjpl_leads (b : Desig) (m : Addr) (s : State) : s.Leads (execBjpl b m s) :=
  State.bankEffective_leads b m .bjpl fun t =>
    State.leads_ite s.evolves_self.boundsFault
      (State.leads_next (s.evolves_self.transfer false t .lower))

theorem execConn_leads (x : BitVec 2) (c : BitVec 12) (n : Addr) (s : State) : s.Leads (execConn x c n s) :=
  have hsent : s.Evolves (s.connect x c) := s.evolves_self.connect x c
  State.onIo_leads x
    (State.leads_ite (s.evolves_self.jumpTo false n)
      (State.leads_ite (State.leads_next hsent.advance)
        (State.leads_ite (.boundsFault (s.evolves_self.write rfl)) (hsent.jumpTo false n))))

theorem execExtf_leads (x : BitVec 2) (c : BitVec 12) (n : Addr) (s : State) : s.Leads (execExtf x c n s) :=
  have hsent : s.Evolves (s.function x c) := s.evolves_self.function x c
  State.onIo_leads x
    (State.leads_ite (s.evolves_self.jumpTo false n)
      (State.leads_ite (State.leads_next hsent.advance)
        (State.leads_ite (s.evolves_self.functionSent x).boundsFault (hsent.jumpTo false n))))

/-- BEGR and BEGW. -/
theorem State.begin_leads (s : State) (x : BitVec 2) (d : Direction) (m n : Addr) :
    s.Leads (s.onIo x (if (s.channel x).active then s.rejectJump n
      else s.readOperand m fun s1 w => .next (s1.beginOperation x d w).advance)) :=
  State.onIo_leads x
    (State.leads_ite (s.evolves_self.jumpTo false n)
      (s.evolves_self.readOperand m fun _ w hu => State.leads_next (hu.beginOperation x d w).advance))

theorem execCcwd_leads (x : BitVec 2) (n : Addr) (s : State) : s.Leads (execCcwd x n s) :=
  State.onIo_leads x
    (State.leads_ite (s.evolves_self.jumpTo false n) (State.leads_next (s.evolves_self.write rfl)))

theorem State.gives_onChannel {P : State → Prop} (s : State) (y : Addr) {k : BitVec 2 → State} (hk : ∀ x, P (k x)) :
    Result.Gives P (s.onChannel y k) := by
  unfold State.onChannel
  split
  · exact Result.gives_next (hk _)
  · exact Result.gives_fault _

/-- The codes of INF write the interrupt registers, the Exits and the lockout alone. -/
theorem State.internalFunction_frame (s : State) (y : Addr) :
    Result.Gives (fun t => t.frame = s.frame) (s.internalFunction y) := by
  unfold State.internalFunction
  split <;> simp [State.frame, State.gives_onChannel, State.setExit, State.clearInterruptSystem, Result.gives_fault]

theorem State.internalFunction_leads (s : State) (y : Addr) : s.Leads (s.internalFunction y) :=
  fun t ht => s.evolves_self.write (s.internalFunction_frame y t ht)

/-- The end of a 24-bit instruction after a result. -/
theorem State.leads_thenNext24 {s : State} {r : Result} (h : s.Leads r) : s.Leads (Result.thenNext24 r) := by
  cases r with
  | next t => exact State.leads_next (h t rfl).next24
  | fault f => exact s.leads_fault f
  | refused x => exact s.leads_refused x

theorem execInf_leads (y : Addr) (s : State) : s.Leads (execInf y s) :=
  State.leads_ite s.evolves_self.illegal (State.leads_thenNext24 (s.internalFunction_leads y))

theorem execSen_leads (y : Addr) (s : State) : s.Leads (execSen y s) := by
  unfold execSen
  split
  · exact State.leads_next s.evolves_self.next24
  · split
    · exact State.leads_next (s.evolves_self.skipIf _)
    · exact s.leads_fault _

theorem State.Evolves.augIndirect {s t : State} (h : s.Evolves t) : s.Leads t.augIndirect :=
  h.readOperand _ fun _ _ hu => State.leads_next (hu.write rfl)

/-! ## Every instruction -/

/-- AUG begins the window of an augment, EUB and ELB write a bounds register; no other instruction does (R37, R45). -/
def ordinary (i : Instr) : Bool :=
  match i with
  | .aug _ | .eub _ | .elb _ => false
  | _ => true

theorem exec_leads (i : Instr) (s : State) (hi : ordinary i = true) : s.Leads (exec i s) := by
  have hs := s.evolves_self
  unfold exec
  cases i with
  | iaq | ati | cis | cms | cpr => exact State.leads_next (.next24 (hs.write rfl))
  | lda b m | lac b m | ldq b m | lqc b m | mui b m | sst b m | scl b m | scm b m | ssu b m | ldl b m =>
    exact State.withOperand_leads b m fun _ _ hu => .next24 (hu.write rfl)
  | add b m | sub b m | adl b m | sbl b m => exact State.withOperand_leads b m fun _ _ hu => (hu.addToA _).next24
  | dvi b m => exact State.withOperand_leads b m fun _ _ hu => (hu.divide _).next24
  | ssk b m => exact State.withOperand_leads b m fun _ _ hu => hu.skipIf _
  | fad b m | fsb b m | fmu b m | fdv b m => exact State.floating_leads _ b m _
  | enq b y | ena b y => exact State.effective_leads b y fun _ => State.leads_next (.next24 (hs.write rfl))
  | ina b y => exact State.effective_leads b y fun _ => State.leads_next (hs.increaseA _).next24
  | eni b y | ini b y | sca b y | scq b y =>
    exact State.resolve_leads b y (State.leads_next (.next24 (hs.write rfl)))
  | liu b m | lil b m =>
    exact State.resolve_leads b m (hs.readOperand m fun _ _ hu => State.leads_next (.next24 (hu.write rfl)))
  | sta b m | stq b m | stl b m => exact State.storeAt_leads b m _
  | siu b m | sil b m =>
    exact State.resolve_leads b m (State.storeField_leads m _ _ fun _ hu => State.leads_next hu.next24)
  | sau b m | sal b m =>
    exact State.effective_leads b m fun a => State.storeField_leads a _ _ fun _ hu => State.leads_next hu.next24
  | ars b k | qrs b k | lrs b k | als b k | qls b k | lls b k => exact State.shift_leads b k _ fun _ => hs.write rfl
  | rad b m | rsb b m | rao b m | rso b m => exact State.replaceSum_leads b m _ _
  | eqs b m | ths b m | meq b m | mth b m => exact State.search_leads b m _
  | ssh b m => exact execSsh_leads b m s
  | isk b y => exact execIsk_leads b y s
  | ijp b m => exact execIjp_leads b m s
  | ajp _ m | qjp _ m | slj m | sj1 m | sj2 m | sj3 m => exact State.jumpIf_leads _ m
  | arj _ m | qrj _ m | rtj m | rj1 m | rj2 m | rj3 m => exact State.returnJumpIf_leads _ m
  | sls m | ss1 m | ss2 m | ss3 m => exact State.stopThen_leads _ (hs.jumpTo true m)
  | srj m | sr1 m | sr2 m | sr3 m => exact State.stopThen_leads _ (s.returnJump_leads m)
  | ldch b v m => exact execLdch_leads b v m s
  | stch b v m => exact execStch_leads b v m s
  | ubjp b m => exact State.bankEffective_leads b m .ubjp fun t => hs.jumpTo false t
  | brtj b m => exact execBrtj_leads b m s
  | bjpl b m => exact execBjpl_leads b m s
  | conn x c n => exact execConn_leads x c n s
  | extf x c n => exact execExtf_leads x c n s
  | begr x m n => exact s.begin_leads x .read m n
  | begw x m n => exact s.begin_leads x .write m n
  | copy x => exact State.onIo_leads x (State.leads_next (.advance (hs.write rfl)))
  | clch x => exact State.onIo_leads x (State.leads_next (hs.clearChannel x).advance)
  | ccwd x n => exact execCcwd_leads x n s
  | inf y => exact execInf_leads y s
  | sen y => exact execSen_leads y s
  | aug y | eub y | elb y => exact nomatch hi
  | illegal00 | illegal26 | illegal27 | illegal62 | illegal63 | illegal747 | illegal777 => exact hs.illegal
  | undefined772 | undefined774 => exact s.leads_fault _

/-- What an instruction can do: it evolves the state, or it is one of the three that write what no other does. -/
inductive State.Effect (s : State) : Instr → State → Prop
  | evolves {i : Instr} {t : State} : s.Evolves t → s.Effect i t
  | augment (y : Addr) : s.Effect (.aug y) (s.augment y)
  | upperBound (y : Addr) : s.Effect (.eub y) ({ s with bu := bits y 7 8 } : State).next24
  | lowerBound (y : Addr) : s.Effect (.elb y) ({ s with bl := bits y 7 8 } : State).next24

theorem State.Leads.effect {s : State} {i : Instr} {r : Result} (h : s.Leads r) : Result.Gives (s.Effect i) r :=
  fun t ht => .evolves (h t ht)

theorem execAug_effect (y : Addr) (s : State) : Result.Gives (s.Effect (.aug y)) (execAug y s) := by
  unfold execAug
  split
  · exact (State.leads_next s.evolves_self.next24).effect
  · split
    · exact s.evolves_self.augIndirect.effect
    · exact Result.gives_next (.augment y)

theorem execEub_effect (y : Addr) (s : State) : Result.Gives (s.Effect (.eub y)) (execEub y s) := by
  unfold execEub
  split
  · exact s.evolves_self.illegal.effect
  · exact Result.gives_next (.upperBound y)

theorem execElb_effect (y : Addr) (s : State) : Result.Gives (s.Effect (.elb y)) (execElb y s) := by
  unfold execElb
  split
  · exact s.evolves_self.illegal.effect
  · exact Result.gives_next (.lowerBound y)

/-- Every instruction has an effect of the list. -/
theorem exec_effect (i : Instr) (s : State) : Result.Gives (s.Effect i) (exec i s) := by
  cases i with
  | aug y => exact execAug_effect y s
  | eub y => exact execEub_effect y s
  | elb y => exact execElb_effect y s
  | _ => exact (exec_leads _ s rfl).effect

/-- Settles O20: an evolution and an augment write neither register, EUB and ELB each leave the other one. -/
theorem boundsRegistersKept : Obligations.BoundsRegistersKept := by
  intro i s t h
  cases exec_effect i s t h with
  | evolves hev => exact ⟨fun _ => hev.lowerBound, fun _ => hev.upperBound⟩
  | augment y => exact ⟨fun _ => rfl, fun _ => rfl⟩
  | upperBound y => exact ⟨fun _ => State.next24_bl _, fun hi => absurd rfl (hi y)⟩
  | lowerBound y => exact ⟨fun hi => absurd rfl (hi y), fun _ => State.next24_bu _⟩

end Sys2Proof.Machine

/-! The invariant of a step (R45, R60). An evolution keeps it (`State.Evolves.sound`), so what is left is where an
augment or the place of the next instruction is written by something else than an instruction that evolves: AUG itself,
which runs only from a word in U, the fetch, and the operator's moves. -/

namespace Sys2Proof.Machine

theorem State.Leads.sound {s : State} {r : Result} (h : s.Leads r) (hs : s.Sound) : Result.Gives State.Sound r :=
  fun t ht => (h t ht).sound hs

theorem State.Sound.augPending_eq_false {s : State} (hs : s.Sound) (hn : s.needRni = true) : s.augPending = false := by
  obtain ⟨-, hpending, -⟩ := hs
  cases h : s.augPending with
  | false => rfl
  | true => exact Bool.noConfusion (hn.symm.trans (hpending h).2)

/-! ## Instructions -/

/-- An augment pends before the lower instruction in U (R45, R337). -/
theorem State.sound_augment {s : State} (y : Addr) (hs : s.Sound) (hn : s.needRni = false) : (s.augment y).Sound :=
  ⟨hs.1, fun _ => ⟨rfl, hn⟩, fun h => Bool.noConfusion h⟩

theorem sound_exec (i : Instr) {s : State} (hs : s.Sound) (hn : s.needRni = false) :
    Result.Gives State.Sound (exec i s) := by
  intro t ht
  cases exec_effect i s t ht with
  | evolves hev => exact hev.sound hs
  | augment y => exact State.sound_augment y hs hn
  | upperBound y | lowerBound y => exact State.sound_next24 hs.1

/-! ## The program's turn -/

/-- The word read is in U. -/
theorem State.sound_loadStep {s : State} (hs : s.Sound) : s.loadStep.Sound :=
  ⟨hs.1, fun h => ⟨(hs.2.1 h).1, rfl⟩, hs.2.2⟩

/-- A parity error makes the upper instruction next, which no augment survives. -/
theorem State.sound_fetched {s : State} {k : State → Result} (hs : s.Sound) (ha : s.augPending = false)
    (hk : ∀ t : State, t.Sound → t.needRni = false → Result.Gives State.Sound (k t)) :
    Result.Gives State.Sound (s.fetched k) := by
  have hload := State.sound_loadStep hs
  refine Result.gives_ite (Result.gives_ite ?_ ?_) (hk _ hload rfl)
  · exact State.sound_cat1Interrupt _ _ (State.sound_setIr 46 hload)
  · exact Result.gives_next (.of_clear hs.1 ha (hs.2.2 ha))

/-- The fetch finds no augment pending, whatever the events before it do. -/
theorem State.sound_fetch {s : State} {k : State → Result} (hs : s.Sound) (hn : s.needRni = true)
    (hk : ∀ t : State, t.Sound → t.needRni = false → Result.Gives State.Sound (k t)) :
    Result.Gives State.Sound (s.fetch k) := by
  have ha := hs.augPending_eq_false hn
  refine Result.gives_ite ?_ (Result.gives_ite ?_ (Result.gives_fault _))
  · exact State.sound_cat1Interrupt _ _ (State.sound_setIr 42 hs)
  · exact s.gives_slot fun t ht => State.sound_fetched (ht.sound hs) (ht.augPending_eq_false ha) hk

theorem State.sound_read {s : State} (hs : s.Sound) (hn : s.needRni = true) :
    Result.Gives State.Sound (s.fetch .next) :=
  State.sound_fetch hs hn fun _ ht _ => Result.gives_next ht

theorem Result.sound_stopped {r : Result} (h : Result.Gives State.Sound r) :
    Result.Gives State.Sound (Result.stopped r) := by
  cases r with
  | next t => exact Result.gives_next (h t rfl)
  | fault f => exact Result.gives_fault f
  | refused x => exact Result.gives_refused x

theorem State.sound_afterStep (s : State) {r : Result} (h : Result.Gives State.Sound r) :
    Result.Gives State.Sound (s.afterStep r) := by
  refine Result.gives_ite ?_ h
  cases r with
  | next t =>
    have ht : t.Sound := h t rfl
    refine Result.gives_ite h ?_
    split
    next hgo =>
      have hn : t.needRni = true := (Bool.and_eq_true_iff.mp hgo).2
      exact Result.sound_stopped (State.sound_read ht hn)
    · exact Result.gives_next ht
  | fault f => exact Result.gives_fault f
  | refused x => exact Result.gives_refused x

theorem State.sound_execute {s : State} (hs : s.Sound) (hn : s.needRni = false) :
    Result.Gives State.Sound s.execute := by
  unfold State.execute
  split
  · exact s.sound_afterStep (sound_exec _ hs hn)
  · split
    · exact s.sound_afterStep (sound_exec _ hs hn)
    · exact Result.gives_fault _

theorem State.sound_sampleAndExecute {s : State} (hs : s.Sound) (hn : s.needRni = false) :
    Result.Gives State.Sound s.sampleAndExecute :=
  Result.gives_ite (State.sound_cat1Interrupt _ _ hs) (State.sound_execute hs hn)

theorem State.sound_sweep {s : State} (hs : s.Sound) : Result.Gives State.Sound s.sweep :=
  Result.gives_ite (Result.gives_next (.of_clear hs.1 rfl rfl)) (Result.gives_fault _)

theorem State.sound_restart {s : State} (hs : s.Sound) : s.restart.Sound :=
  State.sound_enter 0 _ (State.sound_externalClear hs).1

theorem State.sound_program {s : State} (hs : s.Sound) : Result.Gives State.Sound s.program := by
  unfold State.program
  refine Result.gives_ite (Result.gives_next (State.sound_restart hs)) ?_
  refine Result.gives_ite (Result.gives_next hs) ?_
  refine Result.gives_ite (State.sound_sweep hs) ?_
  split
  next hread =>
    have hn : s.needRni = true := (Bool.and_eq_true_iff.mp hread).2
    exact Result.sound_stopped (State.sound_read hs hn)
  refine Result.gives_ite (Result.gives_next (State.sound_enter _ _ hs.1)) ?_
  refine Result.gives_ite (Result.gives_next hs) ?_
  split
  next hn => exact State.sound_fetch hs hn fun _ => State.sound_sampleAndExecute
  next hn => exact State.sound_execute hs (by simpa using hn)

/-! ## The operator's moves -/

theorem State.Sound.ite {s t : State} {c : Prop} [Decidable c] (hs : s.Sound) (ht : t.Sound) :
    (if c then s else t).Sound := by
  split
  · exact hs
  · exact ht

theorem State.sound_freeParErr {s : State} (w : Word) (x : BitVec 2) (hs : s.Sound) : (s.freeParErr w x).Sound :=
  .ite (State.sound_setChannel x _ hs) hs

theorem State.sound_internalClear {s : State} (hs : s.Sound) : s.internalClear.Sound := by
  unfold State.internalClear
  iterate 4 refine State.sound_freeParErr _ _ ?_
  exact .of_clear hs.1 rfl rfl

theorem State.sound_externalClearSwitch {s : State} (hs : s.Sound) : s.externalClearSwitch.Sound := by
  have hclear := State.sound_externalClear hs
  unfold State.externalClearSwitch
  -- only what `hclear` says of the cleared state matters, and comparing its fields is costly
  generalize s.externalClear = t at hclear ⊢
  exact .ite (.ite (.of_clear hclear.1 rfl rfl) hclear) hclear

theorem State.sound_testClear {s : State} (hs : s.Sound) : s.testClear.Sound :=
  have hclear := State.sound_internalClear hs
  .ite hs (.ite (State.sound_externalClearSwitch hclear) hclear)

theorem State.sound_requestStop {s : State} (hs : s.Sound) : s.requestStop.Sound := .ite hs hs

theorem State.sound_requestRestart {s : State} (hs : s.Sound) : s.requestRestart.Sound :=
  .ite (State.sound_restart hs) hs

theorem State.sound_testRun {s : State} (on : Bool) (hs : s.Sound) : (s.testRun on).Sound :=
  .ite (.ite hs (State.sound_requestStop hs)) hs

theorem State.sound_setSystemActive {s : State} (on : Bool) (hs : s.Sound) : (s.setSystemActive on).Sound := by
  have hclear := State.sound_externalClear (State.sound_internalClear hs)
  have hstop := State.sound_requestStop hs
  have hfree : s.requestStop.freeAutoLoad.Sound := .ite hstop hstop
  unfold State.setSystemActive
  -- as above
  generalize s.internalClear.externalClear = t at hclear ⊢
  exact .ite hs (.ite hclear hfree)

theorem State.sound_replaceU {s : State} (w : Word) (hs : s.Sound) : (s.replaceU w).Sound :=
  .of_clear hs.1 rfl rfl

theorem State.sound_panelWrite {s : State} (r : PanelRegister) (v : Word) (hs : s.Sound) :
    (s.panelWrite r v).Sound := by
  refine .ite ?_ hs
  cases r with
  | u => exact State.sound_replaceU v hs
  | a | q | p | b => exact hs

theorem State.sound_enterWord {s : State} (hs : s.Sound) : Result.Gives State.Sound s.enterWord :=
  Result.gives_ite (Result.gives_next (.of_clear (Memory.wf_setWord _ _ _ hs.1) rfl rfl)) (Result.gives_fault _)

theorem State.sound_go {s : State} (hs : s.Sound) : Result.Gives State.Sound s.go :=
  Result.gives_ite (Result.gives_ite (State.sound_enterWord hs) (Result.gives_next hs)) (Result.gives_next hs)

theorem State.sound_startAutoLoad {s : State} (hs : s.Sound) : Result.Gives State.Sound s.startAutoLoad := by
  have hclear := State.sound_externalClear (State.sound_internalClear hs)
  have hbegun : ∀ x c f, (((s.internalClear.externalClear.connect x c).function x f).beginOperation x .read
      autoLoadWord).Sound := fun x c f =>
    State.Evolves.sound (((State.evolves_self _).connect x c).function x f |>.beginOperation x .read _) hclear
  exact Result.gives_ite (Result.gives_next (hbegun _ _ _)) (Result.gives_fault _)

theorem State.sound_ifLive {s : State} {r : Result} (hs : s.Sound) (hr : Result.Gives State.Sound r) :
    Result.Gives State.Sound (s.ifLive r) :=
  Result.gives_ite hr (Result.gives_next hs)

/-- Every move keeps the invariant, whoever makes it (R10). -/
theorem Move.sound (m : Move) {s : State} (hs : s.Sound) : Result.Gives State.Sound (m.perform s) := by
  have hlive : ∀ {t : State}, t.Sound → Result.Gives State.Sound (s.ifLive (.next t)) :=
    fun ht => State.sound_ifLive hs (Result.gives_next ht)
  cases m with
  | compute => exact State.sound_program hs
  | event e => exact Async.sound e hs
  | setSwitches c => exact Result.gives_next (.ite hs hs)
  | go => exact State.sound_ifLive hs (State.sound_go hs)
  | testClear => exact hlive (State.sound_testClear hs)
  | testGo | testStop => exact hlive (State.sound_testRun _ hs)
  | stop => exact hlive (State.sound_requestStop hs)
  | restart => exact hlive (State.sound_requestRestart hs)
  | autoLoad => exact State.sound_ifLive hs (State.sound_startAutoLoad hs)
  | internalClear => exact hlive (State.sound_internalClear hs)
  | externalClear => exact hlive (State.sound_externalClearSwitch hs)
  | systemActive on => exact Result.gives_next (State.sound_setSystemActive on hs)
  | panelWrite r v => exact hlive (State.sound_panelWrite r v hs)

theorem step_sound {s : State} (hs : s.Sound) : Result.Gives State.Sound (step s) := by
  unfold step State.nextMove
  split
  · exact State.sound_program hs
  · exact Move.sound _ hs

/-- Settles O57: every move keeps the invariant, the program's turn among them. -/
theorem stepKeepsSound : Obligations.StepKeepsSound :=
  fun _ t hs h => step_sound hs t h

end Sys2Proof.Machine

/-! What a store writes (R66 to R68): the reading rules of a partial store, and the state in which each store in bounds
leaves the machine. -/

namespace Sys2Proof.Machine

/-! ## Reading after a partial store -/

section
variable {k : Nat} {mem : Memory} (a : Addr) (lo : Nat) (v : BitVec k)

/-- The field stored reads as it was stored. -/
theorem Memory.bits_setField_same (hw : Memory.wf mem = true) (hlo : lo + k ≤ 48) :
    bits (Memory.word (Memory.setField mem a lo v) a) lo k = v := by
  rw [Memory.setField, Memory.word_setWord_same _ _ _ hw, bits_setBits_same _ _ _ hlo]

/-- The other bits of the word read as before. -/
theorem Memory.getLsbD_setField_other (hw : Memory.wf mem = true) {j : Nat} (hj : j < 48)
    (hout : j < lo ∨ lo + k ≤ j) :
    (Memory.word (Memory.setField mem a lo v) a).getLsbD j = (Memory.word mem a).getLsbD j := by
  rw [Memory.setField, Memory.word_setWord_same _ _ _ hw, getLsbD_setBits _ _ _ _ hj, if_neg (by omega)]

/-- Every byte outside the word reads as before. -/
theorem Memory.byte_setField_other (hw : Memory.wf mem = true) {n : Nat}
    (hn : n < 6 * a.toNat ∨ 6 * a.toNat + 6 ≤ n) :
    Memory.byte (Memory.setField mem a lo v) n = Memory.byte mem n :=
  Memory.byte_setWord_other _ _ _ _ hw hn

end

/-! ## Stores in bounds -/

section
variable {s : State} {b : Desig} {m : Addr}

theorem State.storeAt_inBounds (hs : s.CanStore b m) (v : Word) :
    s.storeAt b m v = .next ({ s with memory := Memory.setWord s.memory (s.modified b m) v } : State).next24 := by
  obtain ⟨⟨hq, hb, hword⟩, hin⟩ := hs
  rw [State.storeAt, State.effective_direct _ _ _ _ hb, State.storeWord_quiet _ _ _ _ hq hword hin]

/-- The whole-word stores (R156, R157, R248). -/
theorem exec_wordStore (hs : s.CanStore b m) {i : Instr} {v : Word}
    (hi : (i, v) ∈ [(Instr.sta b m, s.augmented s.a), (.stq b m, s.augmented s.q), (.stl b m, s.q &&& s.a)]) :
    exec i s = .next ({ s with memory := Memory.setWord s.memory (s.modified b m) v } : State).next24 := by
  simp only [List.mem_cons, List.not_mem_nil, or_false, Prod.mk.injEq] at hi
  rcases hi with ⟨rfl, rfl⟩ | ⟨rfl, rfl⟩ | ⟨rfl, rfl⟩
  all_goals exact State.storeAt_inBounds hs _

/-- The partial stores (R160 to R163). -/
theorem exec_fieldStore (hq : s.Quiet) (hb : b ≠ 7) {a v : Addr} {i : Instr} {lo : Nat} (hword : s.hasWord a = true)
    (hin : s.outOfBounds a = false)
    (hi : (i, a, lo, v) ∈ [(Instr.siu b m, m, 24, s.b b), (.sil b m, m, 0, s.b b),
      (.sau b m, s.modified b m, 24, bits s.a 0 15), (.sal b m, s.modified b m, 0, bits s.a 0 15)]) :
    exec i s = .next ({ s with memory := Memory.setField s.memory a lo v } : State).next24 := by
  have hstore : s.storeField a lo v (fun t => .next t.next24)
      = .next ({ s with memory := Memory.setField s.memory a lo v } : State).next24 :=
    s.storeField_quiet a lo v _ hq hword hin
  simp only [List.mem_cons, List.not_mem_nil, or_false, Prod.mk.injEq] at hi
  rcases hi with ⟨rfl, rfl, rfl, rfl⟩ | ⟨rfl, rfl, rfl, rfl⟩ | ⟨rfl, rfl, rfl, rfl⟩ | ⟨rfl, rfl, rfl, rfl⟩
  all_goals exact (s.resolve_direct b _ _ hb).trans hstore

/-- The fields of a partial store lie inside the word. -/
theorem fieldStore_inside {a v : Addr} {i : Instr} {lo : Nat}
    (hi : (i, a, lo, v) ∈ [(Instr.siu b m, m, 24, s.b b), (.sil b m, m, 0, s.b b),
      (.sau b m, s.modified b m, 24, bits s.a 0 15), (.sal b m, s.modified b m, 0, bits s.a 0 15)]) :
    lo + 15 ≤ 48 := by
  simp only [List.mem_cons, List.not_mem_nil, or_false, Prod.mk.injEq] at hi
  omega

end

/-- Settles O16: the state after each store is known, and the reading rules of the memory say the rest. -/
theorem storedBits : Obligations.StoredBits := by
  constructor
  · intro s t b m i v hw hs hi ht
    rw [exec_wordStore hs hi] at ht
    cases ht
    rw [State.next24_memory]
    exact ⟨Memory.word_setWord_same _ _ _ hw, fun n hn => Memory.byte_setWord_other _ _ _ _ hw hn⟩
  · intro s t b m a i v lo hw hq hb hword hin hi ht
    rw [exec_fieldStore hq hb hword hin hi] at ht
    cases ht
    rw [State.next24_memory]
    exact ⟨Memory.bits_setField_same a lo v hw (fieldStore_inside hi),
      fun j hj hout => Memory.getLsbD_setField_other a lo v hw hj hout,
      fun n hn => Memory.byte_setField_other a lo v hw hn⟩

end Sys2Proof.Machine

/-! Bounds checking (R72 to R76): which references are out of bounds, and what a reference out of bounds does: the
bounds fault, whatever the instruction. -/

namespace Sys2Proof.Machine

/-! ## The check -/

/-- Only the upper eight bits of an address are compared (R73). -/
theorem toNat_bits_block (a : Addr) : (bits a 7 8).toNat = a.toNat / 128 := by
  have ha := a.isLt
  simp only [bits, BitVec.extractLsb'_toNat, Nat.shiftRight_eq_div_pow]
  omega

theorem State.boundsOn_iff (s : State) : s.boundsOn = true ↔
    s.intActive = true ∧ s.mask.getLsbD 42 = true ∧ s.mode1 = false ∧ s.mode2 = false ∧ s.mode3 = false := by
  simp [State.boundsOn, s.selected_assigned 42 (by decide), and_assoc]

theorem State.inBounds_iff (s : State) (a : Addr) : s.inBounds a = true ↔
    s.bl.toNat ≤ a.toNat / 128 ∧ (s.bu = 0 ∨ a.toNat / 128 < s.bu.toNat) := by
  simp [State.inBounds, BitVec.le_def, BitVec.lt_def, toNat_bits_block]

/-- Settles O18: checking is on, and one of the two comparisons of R73 fails. -/
theorem boundsCheck : Obligations.BoundsCheck := by
  intro s a
  have hin : s.inBounds a = false ↔
      a.toNat / 128 < s.bl.toNat ∨ (s.bu ≠ 0 ∧ s.bu.toNat ≤ a.toNat / 128) := by
    rw [← Bool.not_eq_true, s.inBounds_iff a, Decidable.not_and_iff_not_or_not, not_or, Nat.not_le, Nat.not_lt]
  rw [State.outOfBounds, Bool.and_eq_true, Bool.not_eq_true', s.boundsOn_iff, hin]

/-! ## The bounds fault -/

theorem State.boundsFault_quiet {s : State} (hq : s.Quiet) : s.boundsFault = .next s.faulted :=
  s.boundsFault_undisturbed hq.1 hq.2.1

/-- The answer of an equipment does not disturb the references. -/
theorem State.quiet_takeAnswer {s : State} (hq : s.Quiet) : s.takeAnswer.2.Quiet := hq

section
variable {s : State} {a : Addr}

theorem State.storeWord_outOfBounds (ha : s.outOfBounds a = true) (v : Word) (k : State → Result) :
    s.storeWord a v k = s.boundsFault := if_pos ha

theorem State.storeField_outOfBounds {n : Nat} (ha : s.outOfBounds a = true) (lo : Nat) (v : BitVec n)
    (k : State → Result) : s.storeField a lo v k = s.boundsFault := if_pos ha

theorem State.replace_outOfBounds (ha : s.outOfBounds a = true) (f : State → Word → State × Word)
    (k : State → Result) : s.replace a f k = s.boundsFault := if_pos ha

theorem State.jumpTo_outOfBounds (ha : s.outOfBounds a = true) (plain : Bool) :
    s.jumpTo plain a = s.boundsFault := if_pos ha

theorem State.rejectJump_outOfBounds (ha : s.outOfBounds a = true) : s.rejectJump a = s.boundsFault :=
  State.jumpTo_outOfBounds ha false

theorem State.returnJump_outOfBounds (ha : s.outOfBounds a = true) : s.returnJump a = s.boundsFault :=
  State.storeField_outOfBounds ha 24 _ _

/-- No stop, or Go after it: the jump is made (R310). -/
theorem State.stopThen_jumps {c : Bool} (hc : c = false ∨ s.slsStopped = true) (jump : Result) :
    s.stopThen c jump = jump := by
  rcases hc with rfl | hc
  · rfl
  · simp [State.stopThen, hc]

/-- A channel instruction that is obeyed (R383). -/
theorem State.onIo_obeyed {x : BitVec 2} (hx : s.CanUse x) (k : Result) : s.onIo x k = k := by
  obtain ⟨hlocked, hinstalled⟩ := hx
  simp [State.onIo, hlocked, hinstalled]

/-- A character instruction at one of the eight positions, without indirect addressing (R330, R331). -/
theorem State.character_direct {b v : Desig} (hb : b ≠ 7) (hv : v ≠ 7)
    (hp : (s.b v).toNat ∈ [0, 6, 12, 18, 24, 30, 36, 42]) (m : Addr) (k : Addr → Nat → Result) :
    s.character b v m k = k (s.modified b m) (s.b v).toNat := by
  have hpos : characterPosition (s.b v) = true := by
    simp only [List.mem_cons, List.not_mem_nil, or_false] at hp
    simp only [characterPosition, Bool.and_eq_true, decide_eq_true_eq]
    omega
  rw [State.character, if_neg hv, if_pos hpos, if_neg hb]

end

/-! ## Instructions out of bounds -/

section
variable {s : State} {b : Desig} {m : Addr}

theorem State.storeAt_outOfBounds (hb : b ≠ 7) (ha : s.outOfBounds (s.modified b m) = true) (v : Word) :
    s.storeAt b m v = s.boundsFault :=
  (s.effective_direct b m _ hb).trans (State.storeWord_outOfBounds ha v _)

theorem State.replaceSum_outOfBounds (hb : b ≠ 7) (ha : s.outOfBounds (s.modified b m) = true)
    (x y : State → Word → Word) : s.replaceSum b m x y = s.boundsFault :=
  (s.effective_direct b m _ hb).trans (State.replace_outOfBounds ha _ _)

theorem execSsh_outOfBounds (hb : b ≠ 7) (ha : s.outOfBounds (s.modified b m) = true) :
    execSsh b m s = s.boundsFault :=
  (s.effective_direct b m _ hb).trans (if_pos ha)

theorem execBjpl_outOfBounds (hb : b ≠ 7) (ha : s.outOfBounds (s.modified b m) = true) :
    execBjpl b m s = s.boundsFault :=
  (s.bankEffective_direct b m .bjpl _ hb).trans (if_pos ha)

/-- BRTJ refers to two words, the one it stores and the one it jumps to (R322). -/
theorem execBrtj_outOfBounds (hb : b ≠ 7)
    (ha : (s.outOfBounds (s.modified b m) || s.outOfBounds (s.modified b m + 1)) = true) :
    execBrtj b m s = s.boundsFault :=
  (s.bankEffective_direct b m .brtj _ hb).trans (if_pos ha)

/-- The stores and the bank jumps that use the modified address (R74, R76). -/
theorem exec_modified_outOfBounds (hb : b ≠ 7) (ha : s.outOfBounds (s.modified b m) = true) {i : Instr}
    (hi : i ∈ [Instr.sta b m, .stq b m, .stl b m, .sau b m, .sal b m, .rad b m, .rsb b m, .rao b m, .rso b m, .ssh b m,
      .ubjp b m, .brtj b m, .bjpl b m]) : exec i s = s.boundsFault := by
  have hstore : ∀ v : Word, s.storeAt b m v = s.boundsFault := State.storeAt_outOfBounds hb ha
  have hfield : ∀ lo, s.effective b m (fun a => s.storeField a lo (bits s.a 0 15) fun t => .next t.next24)
      = s.boundsFault :=
    fun lo => (s.effective_direct b m _ hb).trans (State.storeField_outOfBounds ha lo _ _)
  have hsum : ∀ x y : State → Word → Word, s.replaceSum b m x y = s.boundsFault :=
    State.replaceSum_outOfBounds hb ha
  simp only [List.mem_cons, List.not_mem_nil, or_false] at hi
  rcases hi with rfl | rfl | rfl | rfl | rfl | rfl | rfl | rfl | rfl | rfl | rfl | rfl | rfl
  · exact hstore _
  · exact hstore _
  · exact hstore _
  · exact hfield 24
  · exact hfield 0
  · exact hsum _ _
  · exact hsum _ _
  · exact hsum _ _
  · exact hsum _ _
  · exact execSsh_outOfBounds hb ha
  · exact (s.bankEffective_direct b m .ubjp _ hb).trans (State.jumpTo_outOfBounds ha false)
  · exact execBrtj_outOfBounds hb (by rw [ha, Bool.true_or])
  · exact execBjpl_outOfBounds hb ha

/-- The index stores, which do not modify their address (R160, R161). -/
theorem exec_indexStore_outOfBounds (hb : b ≠ 7) (ha : s.outOfBounds m = true) {i : Instr}
    (hi : i ∈ [Instr.siu b m, .sil b m]) : exec i s = s.boundsFault := by
  have hfield : ∀ lo, s.resolve b m (s.storeField m lo (s.b b) fun t => .next t.next24) = s.boundsFault :=
    fun lo => (s.resolve_direct b m _ hb).trans (State.storeField_outOfBounds ha lo _ _)
  simp only [List.mem_cons, List.not_mem_nil, or_false] at hi
  rcases hi with rfl | rfl
  · exact hfield 24
  · exact hfield 0

theorem execStch_outOfBounds {v : Desig} (hb : b ≠ 7) (hv : v ≠ 7)
    (hp : (s.b v).toNat ∈ [0, 6, 12, 18, 24, 30, 36, 42]) (ha : s.outOfBounds (s.modified b m) = true) :
    execStch b v m s = s.boundsFault :=
  (State.character_direct hb hv hp m _).trans (if_pos ha)

/-- The selective stops once they have stopped, or where they do not stop (R310, R318). -/
theorem exec_selectiveStop_outOfBounds (ha : s.outOfBounds m = true) {i : Instr} {stop : Bool}
    (hi : (i, stop) ∈ [(Instr.sls m, true), (.ss1 m, s.console.maintenance && s.console.stop1),
      (.ss2 m, s.console.maintenance && s.console.stop2), (.ss3 m, s.console.maintenance && s.console.stop3),
      (.srj m, true), (.sr1 m, s.console.maintenance && s.console.stop1),
      (.sr2 m, s.console.maintenance && s.console.stop2), (.sr3 m, s.console.maintenance && s.console.stop3)])
    (hstop : stop = false ∨ s.slsStopped = true) : exec i s = s.boundsFault := by
  have hjump : s.stopThen stop (s.jumpTo true m) = s.boundsFault :=
    (State.stopThen_jumps hstop _).trans (State.jumpTo_outOfBounds ha true)
  have hreturn : s.stopThen stop (s.returnJump m) = s.boundsFault :=
    (State.stopThen_jumps hstop _).trans (State.returnJump_outOfBounds ha)
  simp only [List.mem_cons, List.not_mem_nil, or_false, Prod.mk.injEq] at hi
  rcases hi with ⟨rfl, rfl⟩ | ⟨rfl, rfl⟩ | ⟨rfl, rfl⟩ | ⟨rfl, rfl⟩ | ⟨rfl, rfl⟩ | ⟨rfl, rfl⟩ | ⟨rfl, rfl⟩ | ⟨rfl, rfl⟩
  · exact hjump
  · exact hjump
  · exact hjump
  · exact hjump
  · exact hreturn
  · exact hreturn
  · exact hreturn
  · exact hreturn

end

/-! ## Reject jumps out of bounds -/

section
variable {s : State} {x : BitVec 2} {n : Addr}

/-- An active channel rejects (R386 to R389). -/
theorem exec_busy_outOfBounds (hx : s.CanUse x) (ha : s.outOfBounds n = true) (hactive : (s.channel x).active = true)
    {c : BitVec 12} {m : Addr} {i : Instr} (hi : i ∈ [Instr.conn x c n, .extf x c n, .begr x m n, .begw x m n]) :
    exec i s = s.boundsFault := by
  have hreject : ∀ r : Result, s.onIo x (if (s.channel x).active then s.rejectJump n else r) = s.boundsFault :=
    fun r => (State.onIo_obeyed hx _).trans ((if_pos hactive).trans (State.rejectJump_outOfBounds ha))
  simp only [List.mem_cons, List.not_mem_nil, or_false] at hi
  rcases hi with rfl | rfl | rfl | rfl
  all_goals exact hreject _

/-- The equipment's answer to a Connect code is used up (R386, R395). -/
theorem execConn_outOfBounds (hx : s.CanUse x) (ha : s.outOfBounds n = true) (hactive : (s.channel x).active = false)
    {c : BitVec 12} (hreply : s.connectReply x c = false) : execConn x c n s = s.takeAnswer.2.boundsFault := by
  rw [execConn, State.onIo_obeyed hx, hactive, hreply, ha]
  rfl

theorem execExtf_outOfBounds (hx : s.CanUse x) (ha : s.outOfBounds n = true) (hactive : (s.channel x).active = false)
    {c : BitVec 12} (hreply : s.functionReply x = false) : execExtf x c n s = (s.functionSent x).boundsFault := by
  rw [execExtf, State.onIo_obeyed hx, hactive, hreply, ha]
  rfl

/-- With nothing connected nobody answers a Function code (R387). -/
theorem State.functionReply_unconnected (hconn : (s.channel x).conn = none) : s.functionReply x = false := by
  simp [State.functionReply, hconn]

theorem State.functionSent_unconnected (hconn : (s.channel x).conn = none) : s.functionSent x = s := by
  simp [State.functionSent, hconn]

theorem State.functionSent_connected (hconn : (s.channel x).conn ≠ none) : s.functionSent x = s.takeAnswer.2 := by
  simp [State.functionSent, hconn]

/-- CCWD rejects without a count in A, or on an inactive channel (R392). -/
theorem execCcwd_outOfBounds (hx : s.CanUse x) (ha : s.outOfBounds n = true)
    (hreject : bits s.a 24 15 = 0 ∨ (s.channel x).active = false) : execCcwd x n s = s.boundsFault := by
  have hcond : (decide (bits s.a 24 15 = 0) || !(s.channel x).active) = true := by
    rw [Bool.or_eq_true, decide_eq_true_iff, Bool.not_eq_true']
    exact hreject
  rw [execCcwd, State.onIo_obeyed hx, if_pos hcond, State.rejectJump_outOfBounds ha]

end

/-! ## The fetch -/

/-- A machine that is ready makes the program's turn: the fetch, when U does not hold the step (R121). -/
theorem step_ready_fetch {s : State} (hready : s.Ready) (hstop : s.stopRequest = false) (hrni : s.needRni = true) :
    step s = s.fetch State.sampleAndExecute := by
  obtain ⟨hmoves, hrunning, hwait, hsweep, hmode, hcat1, hrestart⟩ := hready
  simp [step, State.nextMove, State.program, State.readsOnly, hmoves, hrunning, hwait, hsweep, hmode, hcat1, hrestart,
    hstop, hrni]

/-- The fetched word is not read, and its exit is upper (R439). -/
theorem State.fetch_outOfBounds {s : State} (hq : s.Quiet) (ha : s.outOfBounds s.p = true) (k : State → Result) :
    s.fetch k = .next (({ s.setIr 42 with mode1 := true, exit1 := .upper } : State).entered 0o00007 s.p) := by
  rw [State.fetch, if_pos ha, State.cat1Interrupt, State.slot_undisturbed _ _ (by exact hq.1)]
  exact congrArg Host.Outcome.next (State.enter_goodParity _ _ _ hq.2.1)

/-- Settles O17: each form comes to the bounds fault, which in a quiet environment is `State.faulted`. -/
theorem boundsFaults : Obligations.BoundsFaults := by
  refine ⟨?_, ?_, ?_, ?_, ?_⟩
  · intro s b m i hq hb ha hi
    exact (exec_modified_outOfBounds hb ha hi).trans (State.boundsFault_quiet hq)
  · intro s b m hq hb
    have hfault := State.boundsFault_quiet hq
    refine ⟨fun ha => ⟨?_, ?_⟩, fun ha => ?_, fun v hv hp ha => ?_⟩
    · exact (exec_indexStore_outOfBounds hb ha (by simp)).trans hfault
    · exact (exec_indexStore_outOfBounds hb ha (by simp)).trans hfault
    · exact (execBrtj_outOfBounds hb (by rw [ha, Bool.or_true])).trans hfault
    · exact (execStch_outOfBounds hb hv hp ha).trans hfault
  · intro s m i stop hq ha hi hstop
    exact (exec_selectiveStop_outOfBounds ha hi hstop).trans (State.boundsFault_quiet hq)
  · intro s x c m n hq hx ha
    have hfault := State.boundsFault_quiet hq
    have hanswered := State.boundsFault_quiet (State.quiet_takeAnswer hq)
    refine ⟨fun hactive i hi => ?_, fun hidle hreply => ?_, fun hidle hconn => ?_, fun hidle hconn hreply => ?_,
      fun hreject => ?_⟩
    · exact (exec_busy_outOfBounds hx ha hactive hi).trans hfault
    · exact (execConn_outOfBounds hx ha hidle hreply).trans hanswered
    · exact (execExtf_outOfBounds hx ha hidle (State.functionReply_unconnected hconn)).trans
        (by rw [State.functionSent_unconnected hconn, hfault])
    · exact (execExtf_outOfBounds hx ha hidle hreply).trans
        (by rw [State.functionSent_connected hconn, hanswered]; rfl)
    · exact (execCcwd_outOfBounds hx ha hreject).trans hfault
  · intro s hready hq hrni ha
    exact (step_ready_fetch hready hq.2.2.2 hrni).trans (State.fetch_outOfBounds hq ha _)

end Sys2Proof.Machine

/-! Bounds checking protects storage (R72, R74). With no event inside it an instruction writes at most one word, and
that word is in bounds or one of the fixed words of the interrupt entries: `exec_storesOnce` says so of every
instruction, and the protected words are read off from it.

First the functions from states to states, which leave storage alone; then the references and the operations that go on
with a continuation; then the instructions. -/

namespace Sys2Proof.Machine

/-! ## Functions that leave storage alone -/

@[simp] theorem State.skipIf_memory (s : State) (c : Bool) : (s.skipIf c).memory = s.memory := by
  cases c
  · exact s.next24_memory
  · exact s.advance_memory

@[simp] theorem State.clearMode_memory (s : State) (c : Category) : (s.clearMode c).memory = s.memory := by
  cases c <;> rfl

@[simp] theorem State.freeLanding_memory (s : State) (c : Category) (t : Addr) (own : Half) :
    (s.freeLanding c t own).memory = s.memory := by
  simp only [State.freeLanding]
  split
  · exact State.clearMode_memory _ c
  · rfl

@[simp] theorem State.transfer_memory (s : State) (plain : Bool) (t : Addr) (own : Half) :
    (s.transfer plain t own).memory = s.memory := by
  unfold State.transfer
  split
  · rfl
  · split <;> split <;> simp [State.exitLanding]

@[simp] theorem State.lowerCase_memory (s : State) (x : BitVec 2) : (s.lowerCase x).memory = s.memory := by
  unfold State.lowerCase
  split <;> rfl

@[simp] theorem State.freeIr_memory (s : State) (i : Nat) : (s.freeIr i).memory = s.memory := by
  unfold State.freeIr
  split <;> rfl

@[simp] theorem State.wipeChannel_memory (s : State) (x : BitVec 2) : (s.wipeChannel x).memory = s.memory := by
  have hcut : (s.cutWrite x).memory = s.memory := by
    unfold State.cutWrite
    split <;> simp
  simp only [State.wipeChannel]
  split <;> simp [hcut]

@[simp] theorem State.clearChannel_memory (s : State) (x : BitVec 2) : (s.clearChannel x).memory = s.memory := by
  unfold State.clearChannel
  split <;> simp

@[simp] theorem State.beginOperation_memory (s : State) (x : BitVec 2) (d : Direction) (w : Word) :
    (s.beginOperation x d w).memory = s.memory := by
  have hadmit : ∀ t : State, (t.admitTypewriter x).memory = t.memory := by
    intro t
    unfold State.admitTypewriter
    split <;> rfl
  unfold State.beginOperation
  split <;> simp [hadmit]

@[simp] theorem State.putIndirect_memory (s : State) (w : Word) : (s.putIndirect w).memory = s.memory := rfl

@[simp] theorem State.addToA_memory (s : State) (x : Word) : (s.addToA x).memory = s.memory := s.setIrIf_memory 3 _

@[simp] theorem State.increaseA_memory (s : State) (x : Word) : (s.increaseA x).memory = s.memory :=
  s.setIrIf_memory 3 _

@[simp] theorem State.setQA_memory (s : State) (v : BitVec 96) : (s.setQA v).memory = s.memory := rfl

@[simp] theorem State.setAQ_memory (s : State) (v : BitVec 96) : (s.setAQ v).memory = s.memory := rfl

@[simp] theorem State.divide_memory (s : State) (x : Word) : (s.divide x).memory = s.memory := by
  unfold State.divide
  split <;> rfl

@[simp] theorem State.augment_memory (s : State) (y : Addr) : (s.augment y).memory = s.memory := rfl

@[simp] theorem State.applyFp_memory (s : State) (r : FpResult) : (s.applyFp r).memory = s.memory := by
  simp [State.applyFp, State.divideFault, State.exponentOverflow, State.exponentUnderflow]

@[simp] theorem State.searchEnd_memory (s : State) (b : Desig) (found : Bool) :
    (s.searchEnd b found).memory = s.memory := by
  unfold State.searchEnd
  split
  · simp
  · split <;> simp

/-! ## The same storage, and no event to come -/

/-- A reference made from t is made in the storage that s has, and the same events lie before it. -/
structure State.SameStorage (s t : State) : Prop where
  memory : t.memory = s.memory
  slots : t.slots = s.slots

theorem State.sameStorage_self (s : State) : s.SameStorage s := ⟨rfl, rfl⟩

theorem State.SameStorage.trans {s t u : State} (h : s.SameStorage t) (h' : t.SameStorage u) : s.SameStorage u :=
  ⟨h'.memory.trans h.memory, h'.slots.trans h.slots⟩

theorem State.sameStorage_setIrIf (s : State) (i : Nat) (c : Bool) : s.SameStorage (s.setIrIf i c) :=
  ⟨s.setIrIf_memory i c, s.setIrIf_slots i c⟩

theorem State.sameStorage_noteRead (s : State) (a : Addr) : s.SameStorage (s.noteRead a) :=
  have hnote : s.SameStorage (s.noteOperand a) := ⟨rfl, rfl⟩
  hnote.trans (State.sameStorage_setIrIf _ 45 _)

theorem State.sameStorage_connect (s : State) (x : BitVec 2) (c : BitVec 12) : s.SameStorage (s.connect x c) := by
  simp only [State.connect]
  split <;> exact ⟨rfl, rfl⟩

theorem State.sameStorage_function (s : State) (x : BitVec 2) (c : BitVec 12) : s.SameStorage (s.function x c) := by
  unfold State.function
  repeat' split
  all_goals exact ⟨rfl, rfl⟩

theorem State.sameStorage_functionSent (s : State) (x : BitVec 2) : s.SameStorage (s.functionSent x) := by
  unfold State.functionSent
  split <;> exact ⟨rfl, rfl⟩

/-! ## One store, in bounds or at a fixed word -/

/-- The fixed words of the three categories, which an interrupt entry writes unchecked (R77). -/
def EntryWord (a : Addr) : Prop := a = 0o00007 ∨ a = 0o00020 ∨ (0o00030 ≤ a ∧ a ≤ 0o00033)

/-- From s to t storage is as it was, or one word has been stored: one in bounds, or a fixed word. -/
inductive State.StoresOnce (s t : State) : Prop
  | nothing : t.memory = s.memory → s.StoresOnce t
  | word (a : Addr) (w : Word) : s.outOfBounds a = false ∨ EntryWord a →
      t.memory = Memory.setWord s.memory a w → s.StoresOnce t

/-- A word out of bounds that is no fixed word reads as before. -/
theorem State.StoresOnce.word_eq {s t : State} (h : s.StoresOnce t) (hw : Memory.wf s.memory = true) {a : Addr}
    (ha : s.outOfBounds a = true) (hentry : ¬ EntryWord a) : Memory.word t.memory a = Memory.word s.memory a := by
  cases h with
  | nothing hmem => rw [hmem]
  | word c w hc hmem =>
    have hne : a ≠ c := by
      rintro rfl
      rcases hc with hin | hc
      · exact Bool.noConfusion (ha.symm.trans hin)
      · exact hentry hc
    rw [hmem, Memory.word_setWord_other _ _ _ _ hw hne]

/-- When no event falls inside it, the result has made one such store at most. -/
def State.Guards (s : State) (r : Result) : Prop := s.slots = [] → Result.Gives s.StoresOnce r

theorem State.guards_next {s t : State} (h : t.memory = s.memory) : s.Guards (.next t) :=
  fun _ => Result.gives_next (.nothing h)

theorem State.guards_stored {s t : State} {a : Addr} {w : Word} (ha : s.outOfBounds a = false ∨ EntryWord a)
    (h : t.memory = Memory.setWord s.memory a w) : s.Guards (.next t) :=
  fun _ => Result.gives_next (.word a w ha h)

theorem State.guards_storedField {s t : State} {a : Addr} {n lo : Nat} {v : BitVec n}
    (ha : s.outOfBounds a = false ∨ EntryWord a) (h : t.memory = Memory.setField s.memory a lo v) :
    s.Guards (.next t) :=
  State.guards_stored ha h

theorem State.guards_fault (s : State) (f : Fault) : s.Guards (.fault f) := fun _ => Result.gives_fault f

theorem State.guards_ite {s : State} {c : Prop} [Decidable c] {r1 r2 : Result} (h1 : s.Guards r1)
    (h2 : s.Guards r2) : s.Guards (if c then r1 else r2) := by
  split
  · exact h1
  · exact h2

/-! ## Storage references -/

section
variable {s t : State}

/-- With no event before it, a reference is made from the state itself (R79). -/
theorem State.SameStorage.slot (h : s.SameStorage t) {k : State → Result} (hk : s.Guards (k t)) :
    s.Guards (t.slot k) := by
  intro hs
  rw [State.slot_undisturbed _ _ (h.slots.trans hs)]
  exact hk hs

/-- The entry of Category I writes 00007 (R436). -/
theorem State.SameStorage.boundsFault (h : s.SameStorage t) : s.Guards t.boundsFault := by
  have hset : s.SameStorage (t.setIr 42) := ⟨h.memory, h.slots⟩
  unfold State.boundsFault State.cat1Interrupt
  refine hset.slot (State.guards_storedField (a := 0o00007) (lo := 24) (v := t.p) (.inr (.inl rfl)) ?_)
  rw [← h.memory]
  exact State.enter_memory _ _ _

/-- The entries of Categories II and III write their fixed word (R440, R442). -/
theorem State.SameStorage.trapJump (h : s.SameStorage t) {f : Addr} (hf : EntryWord f) (ret : Addr) :
    s.Guards (t.trapJump f ret) := by
  refine h.slot fun hs => ?_
  rw [State.slot_undisturbed _ _ (by exact h.slots.trans hs)]
  refine State.guards_storedField (lo := 24) (v := ret) (.inr hf) ?_ hs
  rw [← h.memory]
  exact State.entryParity_memory _ _

theorem State.SameStorage.jumpTo (h : s.SameStorage t) (plain : Bool) (m : Addr) : s.Guards (t.jumpTo plain m) :=
  State.guards_ite h.boundsFault (State.guards_next ((t.transfer_memory plain m .upper).trans h.memory))

theorem State.SameStorage.readOperand (h : s.SameStorage t) (a : Addr) {k : State → Word → Result}
    (hk : ∀ u w, s.SameStorage u → s.Guards (k u w)) : s.Guards (t.readOperand a k) :=
  State.guards_ite (h.slot (hk _ _ (h.trans (t.sameStorage_noteRead a)))) (s.guards_fault _)

/-- A read that is followed by no other reference. -/
theorem State.SameStorage.readOperand_next (h : s.SameStorage t) (a : Addr) {f : State → Word → State}
    (hf : ∀ u w, (f u w).memory = u.memory) : s.Guards (t.readOperand a fun u w => .next (f u w)) :=
  h.readOperand a fun u w hu => State.guards_next ((hf u w).trans hu.memory)

/-- The store of a word in bounds, as the last reference. -/
theorem State.SameStorage.writeWord (h : s.SameStorage t) {a : Addr} (ha : s.outOfBounds a = false) (w : Word)
    {f : State → State} (hf : ∀ u, (f u).memory = u.memory) :
    s.Guards (t.writeWord a w fun u => .next (f u)) := by
  refine State.guards_ite (h.slot (State.guards_stored (.inl ha) (w := w) ?_)) (s.guards_fault _)
  rw [hf, h.memory]

theorem State.SameStorage.writeField (h : s.SameStorage t) {a : Addr} (ha : s.outOfBounds a = false) {n : Nat}
    (lo : Nat) (v : BitVec n) {f : State → State} (hf : ∀ u, (f u).memory = u.memory) :
    s.Guards (t.writeField a lo v fun u => .next (f u)) := by
  refine State.guards_ite (h.slot (State.guards_storedField (.inl ha) (lo := lo) (v := v) ?_)) (s.guards_fault _)
  rw [hf, h.memory]

end

theorem State.illegal_guards (s : State) : s.Guards s.illegal :=
  have hmode : s.SameStorage { s with mode3 := true, exit3 := s.resumeHalf } := ⟨rfl, rfl⟩
  hmode.trapJump (.inr (.inl rfl)) _

theorem State.cat2Entry_guards (s : State) (low : BitVec 2) : s.Guards (s.cat2Entry low) :=
  have hmode : s.SameStorage { s with mode2 := true, exit2 := s.resumeHalf } := ⟨rfl, rfl⟩
  have hf : EntryWord (0o00030 + low.setWidth 15) := .inr (.inr (by revert low; decide))
  hmode.trapJump hf _

section
variable {s : State}

/-- A checked reference: what it stores when it is in bounds decides (R74). -/
theorem State.guards_checked {a : Addr} {r : Result} (h : s.outOfBounds a = false → s.Guards r) :
    s.Guards (if s.outOfBounds a then s.boundsFault else r) := by
  cases ha : s.outOfBounds a with
  | true => exact s.sameStorage_self.boundsFault
  | false => exact h ha

theorem State.storeWord_guards (a : Addr) (w : Word) {f : State → State} (hf : ∀ u, (f u).memory = u.memory) :
    s.Guards (s.storeWord a w fun u => .next (f u)) :=
  State.guards_checked fun ha => s.sameStorage_self.writeWord ha w hf

theorem State.storeField_guards (a : Addr) {n : Nat} (lo : Nat) (v : BitVec n) {f : State → State}
    (hf : ∀ u, (f u).memory = u.memory) : s.Guards (s.storeField a lo v fun u => .next (f u)) :=
  State.guards_checked fun ha => s.sameStorage_self.writeField ha lo v hf

/-- The word is read, and stored when it is in bounds (R270). -/
theorem State.replace_guards (a : Addr) {f : State → Word → State × Word} {g : State → State}
    (hf : ∀ (u : State) (w : Word), u.SameStorage (f u w).1) (hg : ∀ u, (g u).memory = u.memory) :
    s.Guards (s.replace a f fun u => .next (g u)) :=
  State.guards_checked fun ha =>
    s.sameStorage_self.readOperand a fun u w hu => (hu.trans (hf u w)).writeWord ha _ hg

theorem State.returnJump_guards (s : State) (m : Addr) : s.Guards (s.returnJump m) :=
  State.storeField_guards m 24 _ (by simp)

/-! ## Operand forms -/

theorem State.resolve_guards (b : Desig) (m : Addr) {k : Result} (hk : s.Guards k) : s.Guards (s.resolve b m k) :=
  State.guards_ite (s.sameStorage_self.readOperand_next m (by simp)) hk

theorem State.effective_guards (b : Desig) (m : Addr) {k : Addr → Result} (hk : ∀ a, s.Guards (k a)) :
    s.Guards (s.effective b m k) :=
  State.resolve_guards b m (hk _)

/-- An instruction that reads its operand and then computes. -/
theorem State.withOperand_guards (b : Desig) (m : Addr) {f : State → Word → State}
    (hf : ∀ u w, (f u w).memory = u.memory) : s.Guards (s.withOperand b m fun u w => .next (f u w)) :=
  State.effective_guards b m fun a => s.sameStorage_self.readOperand_next a hf

theorem State.storeAt_guards (b : Desig) (m : Addr) (w : Word) : s.Guards (s.storeAt b m w) :=
  State.effective_guards b m fun a => State.storeWord_guards a w (by simp)

theorem State.character_guards (b v : Desig) (m : Addr) {k : Addr → Nat → Result} (hk : ∀ a p, s.Guards (k a p)) :
    s.Guards (s.character b v m k) :=
  State.guards_ite (s.guards_fault _)
    (State.guards_ite (State.guards_ite (s.sameStorage_self.readOperand_next m (by simp)) (hk _ _)) s.illegal_guards)

theorem State.bankEffective_guards (b : Desig) (m : Addr) (jump : Desig → Addr → Instr) {k : Addr → Result}
    (hk : ∀ a, s.Guards (k a)) : s.Guards (s.bankEffective b m jump k) :=
  State.guards_ite (s.sameStorage_self.readOperand_next m (by simp)) (hk _)

theorem State.onIo_guards (x : BitVec 2) {k : Result} (hk : s.Guards k) : s.Guards (s.onIo x k) :=
  State.guards_ite s.illegal_guards (State.guards_ite hk (s.guards_fault _))

/-! ## Families of instructions -/

theorem State.floating_guards (low : BitVec 2) (b : Desig) (m : Addr) (f : Word → Word → AugT → FpResult) :
    s.Guards (s.floating low b m f) :=
  State.guards_ite (State.withOperand_guards b m (by simp)) (s.cat2Entry_guards low)

theorem State.shift_guards (b : Desig) (k : Addr) (limit : Nat) {f : Nat → State}
    (hf : ∀ n, (f n).memory = s.memory) : s.Guards (s.shift b k limit f) := by
  refine State.effective_guards b k fun v => State.guards_next ?_
  rw [State.next24_memory]
  split
  · rfl
  · exact hf _

theorem State.replaceSum_guards (b : Desig) (m : Addr) (x y : State → Word → Word) :
    s.Guards (s.replaceSum b m x y) :=
  State.effective_guards b m fun a =>
    State.replace_guards a
      (fun u w => (u.sameStorage_setIrIf 3 (overflow48 (x u w) (y u w))).trans ⟨rfl, rfl⟩) (by simp)

theorem State.search_guards (b : Desig) (m : Addr) (hit : State → Word → Bool) : s.Guards (s.search b m hit) :=
  have hcount : s.SameStorage (s.setB b (s.b b - 1)) := ⟨rfl, rfl⟩
  State.resolve_guards b m
    (State.guards_ite (s.sameStorage_self.readOperand_next m (by simp))
      (State.guards_ite (State.guards_next s.next24_memory) (hcount.readOperand_next _ (by simp))))

theorem State.jumpIf_guards (c : Bool) (m : Addr) : s.Guards (s.jumpIf c m) :=
  State.guards_ite (s.sameStorage_self.jumpTo true m) (State.guards_next s.next24_memory)

theorem State.returnJumpIf_guards (c : Bool) (m : Addr) : s.Guards (s.returnJumpIf c m) :=
  State.guards_ite (s.returnJump_guards m) (State.guards_next s.next24_memory)

theorem State.stopThen_guards (c : Bool) {jump : Result} (hj : s.Guards jump) : s.Guards (s.stopThen c jump) :=
  State.guards_ite (State.guards_next rfl) hj

end

/-! ## Instructions with a shape of their own -/

theorem execIsk_guards (b : Desig) (y : Addr) (s : State) : s.Guards (execIsk b y s) :=
  State.resolve_guards b y (State.guards_ite (State.guards_next (by simp)) (State.guards_next (by simp)))

theorem execIjp_guards (b : Desig) (m : Addr) (s : State) : s.Guards (execIjp b m s) :=
  State.resolve_guards b m
    (State.guards_ite (State.guards_next s.next24_memory)
      (State.guards_checked fun _ => State.guards_next (by simp)))

/-- The word is read, and stored when it is in bounds (R276). -/
theorem execSsh_guards (b : Desig) (m : Addr) (s : State) : s.Guards (execSsh b m s) :=
  State.effective_guards b m fun a => State.guards_checked fun ha =>
    s.sameStorage_self.readOperand a fun _ _ hu => hu.writeWord ha _ (by simp)

theorem execLdch_guards (b v : Desig) (m : Addr) (s : State) : s.Guards (execLdch b v m s) :=
  State.character_guards b v m fun t _ => s.sameStorage_self.readOperand_next t (by simp)

theorem execStch_guards (b v : Desig) (m : Addr) (s : State) : s.Guards (execStch b v m s) :=
  State.character_guards b v m fun t p => State.guards_checked fun ht =>
    s.sameStorage_self.readOperand t fun _ _ hu => hu.writeField ht p _ (by simp)

/-- BRTJ checks two words and stores the first (R322). -/
theorem execBrtj_guards (b : Desig) (m : Addr) (s : State) : s.Guards (execBrtj b m s) := by
  refine State.bankEffective_guards b m .brtj fun t => ?_
  split
  · exact s.sameStorage_self.boundsFault
  next hin =>
    rw [Bool.not_eq_true, Bool.or_eq_false_iff] at hin
    exact s.sameStorage_self.writeWord hin.1 _ (by simp)

theorem execBjpl_guards (b : Desig) (m : Addr) (s : State) : s.Guards (execBjpl b m s) :=
  State.bankEffective_guards b m .bjpl fun _ => State.guards_checked fun _ =>
    State.guards_next (s.transfer_memory false _ .lower)

theorem execConn_guards (x : BitVec 2) (c : BitVec 12) (n : Addr) (s : State) : s.Guards (execConn x c n s) :=
  have hsent : s.SameStorage (s.connect x c) := s.sameStorage_connect x c
  have hanswered : s.SameStorage s.takeAnswer.2 := ⟨rfl, rfl⟩
  State.onIo_guards x
    (State.guards_ite (s.sameStorage_self.jumpTo false n)
      (State.guards_ite (State.guards_next hsent.memory)
        (State.guards_ite hanswered.boundsFault (hsent.jumpTo false n))))

theorem execExtf_guards (x : BitVec 2) (c : BitVec 12) (n : Addr) (s : State) : s.Guards (execExtf x c n s) :=
  have hsent : s.SameStorage (s.function x c) := s.sameStorage_function x c
  State.onIo_guards x
    (State.guards_ite (s.sameStorage_self.jumpTo false n)
      (State.guards_ite (State.guards_next hsent.memory)
        (State.guards_ite (s.sameStorage_functionSent x).boundsFault (hsent.jumpTo false n))))

theorem execCcwd_guards (x : BitVec 2) (n : Addr) (s : State) : s.Guards (execCcwd x n s) :=
  State.onIo_guards x (State.guards_ite (s.sameStorage_self.jumpTo false n) (State.guards_next rfl))

/-- The codes of INF leave storage alone, since they leave the frame alone. -/
theorem execInf_guards (y : Addr) (s : State) : s.Guards (execInf y s) := by
  refine State.guards_ite s.illegal_guards ?_
  cases hr : s.internalFunction y with
  | next t => exact State.guards_next (t.next24_memory.trans (congrArg Prod.fst (s.internalFunction_frame y t hr)))
  | fault f => exact s.guards_fault f
  | refused x => exact fun _ => Result.gives_refused x

theorem execAug_guards (y : Addr) (s : State) : s.Guards (execAug y s) := by
  unfold execAug
  split
  · exact State.guards_next s.next24_memory
  · exact State.guards_ite (s.sameStorage_self.readOperand_next _ (by simp)) (State.guards_next (s.augment_memory y))

theorem execSen_guards (y : Addr) (s : State) : s.Guards (execSen y s) := by
  unfold execSen
  split
  · exact State.guards_next s.next24_memory
  · split
    · exact State.guards_next (s.skipIf_memory _)
    · exact s.guards_fault _

/-! ## Every instruction -/

/-- With no event inside it, an instruction stores one word at most, in bounds or at a fixed word. -/
theorem exec_storesOnce (i : Instr) (s : State) : s.Guards (exec i s) := by
  have hs := s.sameStorage_self
  unfold exec
  cases i with
  | iaq | ati | cis | cms | cpr => exact State.guards_next (State.next24_memory _)
  | lda b m | lac b m | ldq b m | lqc b m | add b m | sub b m | mui b m | dvi b m | sst b m | scl b m | scm b m
  | ssu b m | ldl b m | adl b m | sbl b m | ssk b m => exact State.withOperand_guards b m (by simp)
  | fad b m | fsb b m | fmu b m | fdv b m => exact State.floating_guards _ b m _
  | enq b y | ena b y | ina b y => exact State.effective_guards b y fun _ => State.guards_next (by simp)
  | eni b y | ini b y | sca b y | scq b y => exact State.resolve_guards b y (State.guards_next (by simp))
  | liu b m | lil b m => exact State.resolve_guards b m (hs.readOperand_next m (by simp))
  | sta b m | stq b m | stl b m => exact State.storeAt_guards b m _
  | siu b m | sil b m => exact State.resolve_guards b m (State.storeField_guards m _ _ (by simp))
  | sau b m | sal b m => exact State.effective_guards b m fun a => State.storeField_guards a _ _ (by simp)
  | ars b k | qrs b k | lrs b k | als b k | qls b k | lls b k => exact State.shift_guards b k _ (by simp)
  | rad b m | rsb b m | rao b m | rso b m => exact State.replaceSum_guards b m _ _
  | eqs b m | ths b m | meq b m | mth b m => exact State.search_guards b m _
  | ssh b m => exact execSsh_guards b m s
  | isk b y => exact execIsk_guards b y s
  | ijp b m => exact execIjp_guards b m s
  | ajp _ m | qjp _ m | slj m | sj1 m | sj2 m | sj3 m => exact State.jumpIf_guards _ m
  | arj _ m | qrj _ m | rtj m | rj1 m | rj2 m | rj3 m => exact State.returnJumpIf_guards _ m
  | sls m | ss1 m | ss2 m | ss3 m => exact State.stopThen_guards _ (hs.jumpTo true m)
  | srj m | sr1 m | sr2 m | sr3 m => exact State.stopThen_guards _ (s.returnJump_guards m)
  | ldch b v m => exact execLdch_guards b v m s
  | stch b v m => exact execStch_guards b v m s
  | ubjp b m => exact State.bankEffective_guards b m .ubjp fun t => hs.jumpTo false t
  | brtj b m => exact execBrtj_guards b m s
  | bjpl b m => exact execBjpl_guards b m s
  | conn x c n => exact execConn_guards x c n s
  | extf x c n => exact execExtf_guards x c n s
  | begr x m n | begw x m n =>
    exact State.onIo_guards x (State.guards_ite (hs.jumpTo false n) (hs.readOperand_next m (by simp)))
  | copy x | clch x => exact State.onIo_guards x (State.guards_next (by simp))
  | ccwd x n => exact execCcwd_guards x n s
  | inf y => exact execInf_guards y s
  | aug y => exact execAug_guards y s
  | sen y => exact execSen_guards y s
  | eub y | elb y => exact State.guards_ite s.illegal_guards (State.guards_next (State.next24_memory _))
  | illegal00 | illegal26 | illegal27 | illegal62 | illegal63 | illegal747 | illegal777 => exact s.illegal_guards
  | undefined772 | undefined774 => exact s.guards_fault _

/-- Settles O19: the one word that an instruction stores is in bounds or a fixed word, so it is another one. -/
theorem boundsProtectStorage : Obligations.BoundsProtectStorage := by
  intro i s t a hw hslots ha ht h7 h20 h30
  have hentry : ¬ EntryWord a := by
    rintro (h | h | h)
    · exact h7 h
    · exact h20 h
    · exact h30 h
  exact (exec_storesOnce i s hslots t ht).word_eq hw ha hentry

end Sys2Proof.Machine

/-! Decoding and encoding (30_encoding R91 to R104): a 24-bit pattern is put together again from the fields that the
decoder reads; a row of the decoder's table reads back what the encoder writes; and the fields of a 48-bit instruction
do not touch each other, whatever the open layouts. -/

namespace Sys2Proof

/-! ## Fields of a concatenation -/

theorem bits_all {n : Nat} (w : BitVec n) : bits w 0 n = w := BitVec.extractLsb'_eq_self

/-- Two adjacent fields, put together, are the field that spans them. -/
theorem bits_append_bits {n : Nat} (w : BitVec n) (lo len len' : Nat) :
    bits w (lo + len) len' ++ bits w lo len = bits w lo (len' + len) :=
  BitVec.extractLsb'_append_extractLsb'_eq_extractLsb' rfl

theorem ofBool_getLsbD {n : Nat} (w : BitVec n) (i : Nat) : BitVec.ofBool (w.getLsbD i) = bits w i 1 := by
  apply BitVec.eq_of_getLsbD_eq
  intro j hj
  obtain rfl : j = 0 := by omega
  rw [getLsbD_bits, BitVec.getLsbD_ofBool]
  simp

section
variable (f : BitVec 6) (b : Desig) (m : Addr) (rest : BitVec 18)

@[simp] theorem bits_code_of_append : bits ((f ++ b : BitVec 9) ++ m) 18 6 = f :=
  (BitVec.extractLsb'_append_eq_of_le (by omega)).trans BitVec.extractLsb'_append_eq_left

@[simp] theorem bits_designator_of_append : bits ((f ++ b : BitVec 9) ++ m) 15 3 = b :=
  (BitVec.extractLsb'_append_eq_of_le (by omega)).trans BitVec.extractLsb'_append_eq_right

@[simp] theorem bits_address_of_append : bits ((f ++ b : BitVec 9) ++ m) 0 15 = m :=
  BitVec.extractLsb'_append_eq_right

theorem getLsbD_return (ret : Bool) (c : BitVec 2) :
    ((f ++ (BitVec.ofBool ret ++ c : BitVec 3) : BitVec 9) ++ m).getLsbD 17 = ret := by
  rw [BitVec.getLsbD_append, BitVec.getLsbD_append, BitVec.getLsbD_append, BitVec.getLsbD_ofBool]
  simp

theorem bits_condition (ret : Bool) (c : BitVec 2) :
    bits ((f ++ (BitVec.ofBool ret ++ c : BitVec 3) : BitVec 9) ++ m) 15 2 = c :=
  (BitVec.extractLsb'_append_eq_of_le (by omega)).trans
    ((BitVec.extractLsb'_append_eq_of_add_le (by omega)).trans BitVec.extractLsb'_append_eq_right)

@[simp] theorem bits_code_of_wide : bits (f ++ rest) 18 6 = f := BitVec.extractLsb'_append_eq_left

@[simp] theorem bits_rest_of_wide : bits (f ++ rest) 0 18 = rest := BitVec.extractLsb'_append_eq_right

end

/-! ## A 24-bit pattern from its fields -/

section
variable {w : HalfWord} {f : Nat}

theorem classI_of_code (hf : (bits w 18 6).toNat = f) : classI f (bits w 15 3) (bits w 0 15) = .half w := by
  subst hf
  rw [classI, BitVec.ofNat_toNat, BitVec.setWidth_eq]
  have hlow : bits w 15 9 ++ bits w 0 15 = bits w 0 24 := bits_append_bits w 0 15 9
  have hhigh : bits w 18 6 ++ bits w 15 3 = bits w 15 9 := bits_append_bits w 15 3 6
  rw [hhigh, hlow, bits_all]

theorem wide_of_code (hf : (bits w 18 6).toNat = f) : wide f (bits w 0 18) = .half w := by
  subst hf
  rw [wide, BitVec.ofNat_toNat, BitVec.setWidth_eq]
  have hspan : bits w 18 6 ++ bits w 0 18 = bits w 0 24 := bits_append_bits w 0 18 6
  rw [hspan, bits_all]

theorem conditional_of_code (hf : (bits w 18 6).toNat = f) {ret : Bool} (hret : w.getLsbD 17 = ret) :
    conditional f ret (bits w 15 2) (bits w 0 15) = .half w := by
  have hspan : bits w 17 1 ++ bits w 15 2 = bits w 15 3 := bits_append_bits w 15 2 1
  rw [conditional, ← hret, ofBool_getLsbD, hspan, classI_of_code hf]

end

/-- A 24-bit pattern from its code, its third digit and its address. -/
theorem classI_of_fields {w : HalfWord} {f d : Nat} {y : Addr} (hf : (bits w 18 6).toNat = f)
    (hd : (bits w 15 3).toNat = d) (hy : bits w 0 15 = y) : classI f (BitVec.ofNat 3 d) y = .half w := by
  subst hd hy
  rw [BitVec.ofNat_toNat, BitVec.setWidth_eq, classI_of_code hf]

/-- What the decoder reads is a well-formed instruction whose encoding is w. -/
def Decoded.Encodes (l : Layouts) (w : HalfWord) (d : Decoded) : Prop :=
  ∀ i, d = .instr i → i.wf l = true ∧ encode l i = .half w

section
variable {l : Layouts} {w : HalfWord}

theorem Decoded.encodes_instr {i : Instr} (hwf : i.wf l = true) (he : encode l i = .half w) :
    (Decoded.instr i).Encodes l w := by
  rintro _ ⟨⟩
  exact ⟨hwf, he⟩

theorem Decoded.encodes_refused (r : DecodeRefusal) : (Decoded.refused r).Encodes l w := by
  rintro _ ⟨⟩

/-- The patterns of ATI are told by their upper 15 bits, its designator by the others (R100). -/
theorem ati_of_legal00 {rest : BitVec 18} (h : legal00 rest = true) (hiaq : rest ≠ 0o700554) :
    (bits rest 0 3 ≠ 0 ∧ bits rest 0 3 ≠ 7) ∧ (0o74054 : BitVec 15) ++ bits rest 0 3 = rest := by
  simp only [legal00, Bool.or_eq_true, Bool.and_eq_true, decide_eq_true_eq, hiaq, false_or] at h
  obtain ⟨⟨hcode, h0⟩, h7⟩ := h
  have hspan : bits rest 3 15 ++ bits rest 0 3 = bits rest 0 18 := bits_append_bits rest 0 3 15
  rw [hcode, bits_all] at hspan
  exact ⟨⟨h0, h7⟩, hspan⟩

theorem decode00_encodes (hf : (bits w 18 6).toNat = 0o00) :
    (Decoded.instr (decode00 (bits w 0 18))).Encodes l w := by
  have hwide : wide 0o00 (bits w 0 18) = .half w := wide_of_code hf
  unfold decode00
  split
  next hiaq => exact Decoded.encodes_instr rfl (by rw [encode, ← hiaq, hwide])
  next hiaq =>
    split
    next hlegal =>
      obtain ⟨hb, hrest⟩ := ati_of_legal00 hlegal hiaq
      refine Decoded.encodes_instr ?_ ?_
      · simpa [Instr.wf] using hb
      · rw [encode, hrest, hwide]
    next hillegal => exact Decoded.encodes_instr (by simpa [Instr.wf] using hillegal) hwide

theorem decode74Half_encodes (hf : (bits w 18 6).toNat = 0o74) :
    (decode74Half (bits w 15 3) (bits w 0 15)).Encodes l w := by
  unfold decode74Half
  split
  next h7 => exact Decoded.encodes_instr rfl (classI_of_fields hf (congrArg BitVec.toNat h7) rfl)
  next => exact Decoded.encodes_refused _

theorem decode75_encodes (hf : (bits w 18 6).toNat = 0o75) :
    (Decoded.instr (decode75 (bits w 15 3) (bits w 0 15))).Encodes l w := by
  unfold decode75
  split
  case h_8 =>
    have h7 : (bits w 15 3).toNat = 7 := by
      simp only [imp_false] at *
      omega
    exact Decoded.encodes_instr rfl (classI_of_fields hf h7 rfl)
  all_goals exact Decoded.encodes_instr rfl (classI_of_fields hf ‹_› rfl)

theorem decode76_encodes (hf : (bits w 18 6).toNat = 0o76) :
    (Decoded.instr (decode76 (bits w 15 3) (bits w 0 15))).Encodes l w := by
  unfold decode76
  split
  case h_8 =>
    have h7 : (bits w 15 3).toNat = 7 := by
      simp only [imp_false] at *
      omega
    exact Decoded.encodes_instr rfl (classI_of_fields hf h7 rfl)
  all_goals exact Decoded.encodes_instr rfl (classI_of_fields hf ‹_› rfl)

theorem decode77_encodes (hf : (bits w 18 6).toNat = 0o77) :
    (Decoded.instr (decode77 (bits w 15 3) (bits w 0 15))).Encodes l w := by
  unfold decode77
  split
  case h_3 h2 =>
    split
    next h0 => exact Decoded.encodes_instr rfl (classI_of_fields hf h2 h0)
    next h0 =>
      split
      next h1 => exact Decoded.encodes_instr rfl (classI_of_fields hf h2 h1)
      next h1 => exact Decoded.encodes_instr (by simpa [Instr.wf] using ⟨h0, h1⟩) (classI_of_fields hf h2 rfl)
  case h_5 h4 =>
    split
    next h0 => exact Decoded.encodes_instr rfl (classI_of_fields hf h4 h0)
    next h0 => exact Decoded.encodes_instr (by simpa [Instr.wf] using h0) (classI_of_fields hf h4 rfl)
  case h_8 =>
    have h7 : (bits w 15 3).toNat = 7 := by
      simp only [imp_false] at *
      omega
    exact Decoded.encodes_instr rfl (classI_of_fields hf h7 rfl)
  all_goals exact Decoded.encodes_instr rfl (classI_of_fields hf ‹_› rfl)

/-- The return bit of f = 22 and 23 chooses between two instructions (R101). -/
theorem conditional_encodes {f : Nat} (hf : (bits w 18 6).toNat = f) {i j : Instr}
    (hwfi : i.wf l = true) (hi : encode l i = conditional f true (bits w 15 2) (bits w 0 15))
    (hwfj : j.wf l = true) (hj : encode l j = conditional f false (bits w 15 2) (bits w 0 15)) :
    (Decoded.instr (if w.getLsbD 17 then i else j)).Encodes l w := by
  split
  next hret => exact Decoded.encodes_instr hwfi (hi.trans (conditional_of_code hf hret))
  next hret => exact Decoded.encodes_instr hwfj (hj.trans (conditional_of_code hf (eq_false_of_ne_true hret)))

end

/-- Each row of the decoder's table is undone by the encoder: the codes with their own further digits by their lemmas,
those with an 18-bit rest, and all others by their three fields. -/
theorem decode24_encodes (l : Layouts) (w : HalfWord) : (decode24 w).Encodes l w := by
  unfold decode24
  split
  case h_1 hf => exact decode00_encodes hf
  case h_19 hf | h_20 hf => exact conditional_encodes hf rfl rfl rfl rfl
  case h_23 hf | h_24 hf | h_51 hf => exact Decoded.encodes_instr rfl (wide_of_code hf)
  case h_52 => exact Decoded.encodes_refused _
  case h_61 hf => exact decode74Half_encodes hf
  case h_62 hf => exact decode75_encodes hf
  case h_63 hf => exact decode76_encodes hf
  case h_64 =>
    have hf : (bits w 18 6).toNat = 0o77 := by
      simp only [imp_false] at *
      omega
    exact decode77_encodes hf
  all_goals exact Decoded.encodes_instr rfl (classI_of_code ‹_›)

/-- Settles O3: the encoder undoes every row of the decoder's table. -/
theorem encodeDecode : Obligations.EncodeDecode :=
  fun l w => decode24_encodes l w

/-- Settles O4: fixed words, each evaluated by the decoder. -/
theorem decodeExamples : Obligations.DecodeExamples := by
  unfold Obligations.DecodeExamples
  decide

/-! ## Half words: a row of the decoder's table, read from what the encoder writes -/

theorem toNat_code {f : Nat} (hf : f < 64) : (BitVec.ofNat 6 f).toNat = f :=
  (BitVec.toNat_ofNat f 6).trans (Nat.mod_eq_of_lt hf)

section
variable (l : Layouts) {f : Nat}

/-- A row of the decoder's table that reads b and m is undone by `classI`. -/
theorem decodeEncoded_fields {d : Desig → Addr → Decoded} (hf : f < 64)
    (h : ∀ w, (bits w 18 6).toNat = f → decode24 w = d (bits w 15 3) (bits w 0 15)) (b : Desig) (m : Addr) :
    decodeEncoded l (classI f b m) = d b m := by
  rw [classI, decodeEncoded, h _ (by rw [bits_code_of_append, toNat_code hf]), bits_designator_of_append,
    bits_address_of_append]

theorem decodeEncoded_classI {i : Desig → Addr → Instr} (hf : f < 64)
    (h : ∀ w, (bits w 18 6).toNat = f → decode24 w = .instr (i (bits w 15 3) (bits w 0 15)))
    (b : Desig) (m : Addr) : decodeEncoded l (classI f b m) = .instr (i b m) :=
  decodeEncoded_fields (d := fun b m => .instr (i b m)) l hf h b m

/-- A row that reads the whole rest is undone by `wide`. -/
theorem decodeEncoded_wide {i : BitVec 18 → Instr} (hf : f < 64)
    (h : ∀ w, (bits w 18 6).toNat = f → decode24 w = .instr (i (bits w 0 18))) (rest : BitVec 18) :
    decodeEncoded l (wide f rest) = .instr (i rest) := by
  rw [wide, decodeEncoded, h _ (by rw [bits_code_of_wide, toNat_code hf]), bits_rest_of_wide]

/-- A row that tells its two instructions by the return bit is undone by `conditional`. -/
theorem decodeEncoded_conditional {i j : BitVec 2 → Addr → Instr} (hf : f < 64)
    (h : ∀ w, (bits w 18 6).toNat = f → decode24 w =
      .instr (if w.getLsbD 17 then i (bits w 15 2) (bits w 0 15) else j (bits w 15 2) (bits w 0 15)))
    (ret : Bool) (c : BitVec 2) (m : Addr) :
    decodeEncoded l (conditional f ret c m) = .instr (if ret then i c m else j c m) := by
  rw [conditional, classI, decodeEncoded, h _ (by rw [bits_code_of_append, toNat_code hf]), getLsbD_return,
    bits_condition, bits_address_of_append]

theorem decodeEncoded_75 (j : Desig) (m : Addr) : decodeEncoded l (classI 0o75 j m) = .instr (decode75 j m) :=
  decodeEncoded_classI l (by decide) (fun w hf => by rw [decode24, hf]; rfl) j m

theorem decodeEncoded_76 (j : Desig) (m : Addr) : decodeEncoded l (classI 0o76 j m) = .instr (decode76 j m) :=
  decodeEncoded_classI l (by decide) (fun w hf => by rw [decode24, hf]; rfl) j m

theorem decodeEncoded_77 (s : Desig) (y : Addr) : decodeEncoded l (classI 0o77 s y) = .instr (decode77 s y) :=
  decodeEncoded_classI l (by decide) (fun w hf => by rw [decode24, hf]; rfl) s y

theorem decodeEncoded_illegal747_half (y : Addr) :
    decodeEncoded l (encode l (.illegal747 (.half y))) = .instr (.illegal747 (.half y)) :=
  decodeEncoded_fields (d := decode74Half) l (by decide) (fun w hf => by rw [decode24, hf]; rfl) 7 y

theorem decodeEncoded_00 (rest : BitVec 18) : decodeEncoded l (wide 0o00 rest) = .instr (decode00 rest) :=
  decodeEncoded_wide l (by decide) (fun w hf => by rw [decode24, hf]; rfl) rest

end

theorem decode00_ati {b : Desig} (h0 : b ≠ 0) (h7 : b ≠ 7) : decode00 ((0o74054 : BitVec 15) ++ b) = .ati b := by
  have hhigh : bits ((0o74054 : BitVec 15) ++ b) 3 15 = 0o74054 := BitVec.extractLsb'_append_eq_left
  have hlow : bits ((0o74054 : BitVec 15) ++ b) 0 3 = b := BitVec.extractLsb'_append_eq_right
  have hlegal : legal00 ((0o74054 : BitVec 15) ++ b) = true := by
    rw [legal00, hhigh, hlow]
    simpa using .inr ⟨h0, h7⟩
  have hiaq : (0o74054 : BitVec 15) ++ b ≠ 0o700554 := by
    intro h
    rw [h] at hhigh
    exact absurd hhigh (by decide)
  rw [decode00, if_neg hiaq, if_pos hlegal, hlow]

theorem decode00_illegal {rest : BitVec 18} (h : legal00 rest = false) : decode00 rest = .illegal00 rest := by
  have hiaq : rest ≠ 0o700554 := by
    rintro rfl
    exact absurd h (by decide)
  rw [decode00, if_neg hiaq, h]
  rfl

/-! ## Whole words: the frames of f = 63 and f = 74 -/

section
variable {l : Layouts} {w : Word}

theorem decode_of_code63 (h : bits w 42 6 = 0o63) : decode l .upper w = .instr (decode63 l.bank w) := by
  simp [decode, isFortyEightBit, h]

theorem decode_of_code74 (h : bits w 42 6 = 0o74) : decode l .upper w = .instr (decode74 l.io w) := by
  simp [decode, isFortyEightBit, h]

theorem decode63_of_characterPattern {l : BankLayout} (h : characterPattern w = true) :
    decode63 l w = if bits w 15 3 = 0 then .ldch (bits w 39 3) (bits w 36 3) (bits w 0 15)
      else .stch (bits w 39 3) (bits w 36 3) (bits w 0 15) :=
  if_pos h

theorem decode63_of_illegal63Word {l : BankLayout} (h : illegal63Word l w = true) :
    decode63 l w = .illegal63 (bits w 0 42) := by
  simp only [illegal63Word, Bool.and_eq_true, Bool.not_eq_true', Option.isNone_iff_eq_none] at h
  obtain ⟨hchar, hkind⟩ := h
  simp [decode63, hchar, hkind]

end

/-! ## Character instructions (R94) -/

section
variable (b v : Desig) (third : Nat) (m : Addr)

theorem characterWord_code : bits (characterWord b v third m) 42 6 = 0o63 := by
  simp only [characterWord]
  iterate 5 rw [bits_setBits_apart _ _ _ _ _ (by omega) (by omega)]
  exact bits_setBits_same _ _ _ (by omega)

theorem characterWord_b : bits (characterWord b v third m) 39 3 = b := by
  simp only [characterWord]
  iterate 4 rw [bits_setBits_apart _ _ _ _ _ (by omega) (by omega)]
  exact bits_setBits_same _ _ _ (by omega)

theorem characterWord_v : bits (characterWord b v third m) 36 3 = v := by
  simp only [characterWord]
  iterate 3 rw [bits_setBits_apart _ _ _ _ _ (by omega) (by omega)]
  exact bits_setBits_same _ _ _ (by omega)

theorem characterWord_fixed : bits (characterWord b v third m) 18 18 = 0o000650 := by
  simp only [characterWord]
  iterate 2 rw [bits_setBits_apart _ _ _ _ _ (by omega) (by omega)]
  exact bits_setBits_same _ _ _ (by omega)

theorem characterWord_third : bits (characterWord b v third m) 15 3 = BitVec.ofNat 3 third := by
  simp only [characterWord]
  rw [bits_setBits_apart _ _ _ _ _ (by omega) (by omega)]
  exact bits_setBits_same _ _ _ (by omega)

theorem characterWord_address : bits (characterWord b v third m) 0 15 = m :=
  bits_setBits_same _ _ _ (by omega)

/-- A character instruction is recognised, and its third digit tells a load from a store (R104). -/
theorem decode_characterWord (l : Layouts) (h : third = 0 ∨ third = 5) :
    decode l .upper (characterWord b v third m) = .instr (if third = 0 then .ldch b v m else .stch b v m) := by
  have hpattern : characterPattern (characterWord b v third m) = true := by
    rcases h with rfl | rfl <;> simp [characterPattern, characterWord_fixed, characterWord_third]
  rw [decode_of_code63 (characterWord_code b v third m), decode63_of_characterPattern hpattern, characterWord_third,
    characterWord_b, characterWord_v, characterWord_address]
  rcases h with rfl | rfl <;> rfl

end

/-! ## Bank jumps (R99, R320) -/

/-- The instruction of a bank jump. -/
def BankKind.jump (k : BankKind) (b : Desig) (m : Addr) : Instr :=
  match k with
  | .ubjp => .ubjp b m
  | .brtj => .brtj b m
  | .bjpl => .bjpl b m

/-- The places of s in a bank jump; BJPL has none. -/
def BankLayout.placesS (l : BankLayout) (k : BankKind) : Places :=
  match k with
  | .ubjp => l.s
  | .brtj => l.s
  | .bjpl => []

/-- The designator s of a bank jump. -/
def BankKind.s (k : BankKind) : Nat :=
  match k with
  | .ubjp => 0
  | .brtj => 1
  | .bjpl => 0

theorem Places.fit_iff (l : Places) (n : Nat) : Places.fit l n = true ↔ (∀ p ∈ l, p < n) ∧ l.Nodup := by
  simp [Places.fit]

theorem Places.fit_append (l l' : Places) (n : Nat) : Places.fit (l ++ l') n = true ↔
    Places.fit l n = true ∧ Places.fit l' n = true ∧ ∀ p ∈ l, p ∉ l' := by
  simp only [Places.fit_iff, List.nodup_append, List.mem_append]
  constructor
  · rintro ⟨hlt, hl, hl', hne⟩
    exact ⟨⟨fun p hp => hlt p (.inl hp), hl⟩, ⟨fun p hp => hlt p (.inr hp), hl'⟩, fun p hp hp' => hne p hp p hp' rfl⟩
  · rintro ⟨⟨hlt, hl⟩, ⟨hlt', hl'⟩, hapart⟩
    exact ⟨fun p hp => hp.elim (hlt p) (hlt' p), hl, hl', fun p hp q hq hpq => hapart p hp (hpq ▸ hq)⟩

theorem gather_scatter_fit (w : Word) {l : Places} (hl : Places.fit l 42 = true) (v : Nat) :
    gather (scatter w l v) l = v % 2 ^ l.length := by
  obtain ⟨hlt, hnodup⟩ := (Places.fit_iff l 42).1 hl
  exact gather_scatter_same w l v hnodup fun p hp => Nat.lt_trans (hlt p hp) (by decide)

namespace BankLayout
variable {l : BankLayout} (k : BankKind)

theorem putS_eq_scatter (w : Word) : l.putS k w = scatter w (l.placesS k) k.s := by
  cases k <;> rfl

theorem fit_fields (hl : l.valid = true) :
    Places.fit (l.sub ++ (l.placesS k ++ (l.placesB k ++ l.placesM k))) 42 = true := by
  simp only [valid, Bool.and_eq_true] at hl
  obtain ⟨⟨-, hfit⟩, hfit1⟩ := hl
  cases k with
  | ubjp | brtj => exact hfit
  | bjpl => exact hfit1

theorem length_sub (hl : l.valid = true) : l.sub.length = 3 := by
  simp only [valid, Bool.and_eq_true, decide_eq_true_eq] at hl
  omega

theorem length_s (hl : l.valid = true) : 1 ≤ l.s.length := by
  simp only [valid, Bool.and_eq_true, decide_eq_true_eq] at hl
  omega

theorem length_placesB (hl : l.valid = true) : (l.placesB k).length = 3 := by
  simp only [valid, Bool.and_eq_true, decide_eq_true_eq] at hl
  cases k <;> simp only [placesB] <;> omega

theorem length_placesM (hl : l.valid = true) : (l.placesM k).length = 15 := by
  simp only [valid, Bool.and_eq_true, decide_eq_true_eq] at hl
  cases k <;> simp only [placesM] <;> omega

end BankLayout

/-- The fields of a bank jump lie below the function code and apart from each other. -/
structure BankLayout.Apart (l : BankLayout) (k : BankKind) : Prop where
  sub : Places.fit l.sub 42 = true
  s : Places.fit (l.placesS k) 42 = true
  b : Places.fit (l.placesB k) 42 = true
  m : Places.fit (l.placesM k) 42 = true
  sub_s : ∀ p ∈ l.sub, p ∉ l.placesS k
  sub_b : ∀ p ∈ l.sub, p ∉ l.placesB k
  sub_m : ∀ p ∈ l.sub, p ∉ l.placesM k
  s_b : ∀ p ∈ l.placesS k, p ∉ l.placesB k
  s_m : ∀ p ∈ l.placesS k, p ∉ l.placesM k
  b_m : ∀ p ∈ l.placesB k, p ∉ l.placesM k

theorem BankLayout.apart {l : BankLayout} (hl : l.valid = true) (k : BankKind) : l.Apart k := by
  have hfit := l.fit_fields k hl
  simp only [Places.fit_append, List.mem_append, not_or] at hfit
  obtain ⟨hsub, ⟨hs, ⟨hb, hm, hbm⟩, hsrest⟩, hsubrest⟩ := hfit
  exact ⟨hsub, hs, hb, hm, fun p hp => (hsubrest p hp).1, fun p hp => (hsubrest p hp).2.1,
    fun p hp => (hsubrest p hp).2.2, fun p hp => (hsrest p hp).1, fun p hp => (hsrest p hp).2, hbm⟩

section
variable {l : BankLayout} {k : BankKind}

theorem bankWord_code (h : l.Apart k) (b : Desig) (m : Addr) : bits (bankWord l k b m) 42 6 = 0o63 := by
  have hlow {places : Places} (hfit : Places.fit places 42 = true) : ∀ p ∈ places, p < 42 ∨ 42 + 6 ≤ p :=
    fun p hp => .inl (((Places.fit_iff places 42).1 hfit).1 p hp)
  rw [bankWord, l.putS_eq_scatter, bits_scatter_apart _ _ _ _ _ (hlow h.m), bits_scatter_apart _ _ _ _ _ (hlow h.b),
    bits_scatter_apart _ _ _ _ _ (hlow h.s), bits_scatter_apart _ _ _ _ _ (hlow h.sub)]
  exact bits_setBits_same _ _ _ (by omega)

theorem gather_bankWord_sub (h : l.Apart k) (b : Desig) (m : Addr) :
    gather (bankWord l k b m) l.sub = bankSub k % 2 ^ l.sub.length := by
  rw [bankWord, l.putS_eq_scatter, gather_scatter_apart _ _ _ _ h.sub_m, gather_scatter_apart _ _ _ _ h.sub_b,
    gather_scatter_apart _ _ _ _ h.sub_s, gather_scatter_fit _ h.sub]

theorem gather_bankWord_s (h : l.Apart k) (b : Desig) (m : Addr) :
    gather (bankWord l k b m) (l.placesS k) = k.s % 2 ^ (l.placesS k).length := by
  rw [bankWord, l.putS_eq_scatter, gather_scatter_apart _ _ _ _ h.s_m, gather_scatter_apart _ _ _ _ h.s_b,
    gather_scatter_fit _ h.s]

theorem gather_bankWord_b (h : l.Apart k) (b : Desig) (m : Addr) :
    gather (bankWord l k b m) (l.placesB k) = b.toNat % 2 ^ (l.placesB k).length := by
  rw [bankWord, gather_scatter_apart _ _ _ _ h.b_m, gather_scatter_fit _ h.b]

theorem gather_bankWord_m (h : l.Apart k) (b : Desig) (m : Addr) :
    gather (bankWord l k b m) (l.placesM k) = m.toNat % 2 ^ (l.placesM k).length :=
  gather_scatter_fit _ h.m _

end

section
variable {l : BankLayout} (hl : l.valid = true) (k : BankKind) (b : Desig) (m : Addr)
include hl

theorem bankB_bankWord : bankB l k (bankWord l k b m) = b := by
  rw [bankB, gather_bankWord_b (l.apart hl k), l.length_placesB k hl, Nat.mod_eq_of_lt b.isLt, BitVec.ofNat_toNat,
    BitVec.setWidth_eq]

theorem bankM_bankWord : bankM l k (bankWord l k b m) = m := by
  rw [bankM, gather_bankWord_m (l.apart hl k), l.length_placesM k hl, Nat.mod_eq_of_lt m.isLt, BitVec.ofNat_toNat,
    BitVec.setWidth_eq]

theorem bankKind_bankWord : bankKind l (bankWord l k b m) = some k := by
  have hsub := gather_bankWord_sub (l.apart hl k) b m
  have hs := gather_bankWord_s (l.apart hl k) b m
  rw [l.length_sub hl] at hsub
  cases k with
  | ubjp =>
    have hs0 : gather (bankWord l .ubjp b m) l.s = 0 := hs.trans (Nat.zero_mod _)
    simp [bankKind, hsub, hs0, bankSub]
  | brtj =>
    have hs1 : gather (bankWord l .brtj b m) l.s = 1 := hs.trans (Nat.one_mod_two_pow (l.length_s hl))
    simp [bankKind, hsub, hs1, bankSub]
  | bjpl => simp [bankKind, hsub, bankSub]

/-- A bank jump is read back, unless its word is that of a character instruction, which comes first (R104). -/
theorem decode63_bankWord (hchar : characterPattern (bankWord l k b m) = false) :
    decode63 l (bankWord l k b m) = k.jump b m := by
  rw [decode63, hchar, bankKind_bankWord hl k b m]
  cases k <;> simp [BankKind.jump, bankB_bankWord hl, bankM_bankWord hl]

end

theorem encode_jump (l : Layouts) (k : BankKind) (b : Desig) (m : Addr) :
    encode l (k.jump b m) = .full (bankWord l.bank k b m) := by
  cases k <;> rfl

theorem wf_jump (l : Layouts) (k : BankKind) (b : Desig) (m : Addr) :
    (k.jump b m).wf l = !characterPattern (bankWord l.bank k b m) := by
  cases k <;> rfl

theorem decodeEncoded_jump {l : Layouts} (hl : l.bank.valid = true) (k : BankKind) (b : Desig) (m : Addr)
    (hwf : (k.jump b m).wf l = true) : decodeEncoded l (encode l (k.jump b m)) = .instr (k.jump b m) := by
  rw [wf_jump, Bool.not_eq_true'] at hwf
  rw [encode_jump, decodeEncoded, decode_of_code63 (bankWord_code (l.bank.apart hl k) b m),
    decode63_bankWord hl k b m hwf]

/-! ## Channel instructions (R93, R381) -/

/-- The word is a 74.s. -/
structure Is74 (s : Nat) (w : Word) : Prop where
  code : bits w 42 6 = 0o74
  digit : bits w 39 3 = BitVec.ofNat 3 s

theorem is74_append (s : Nat) (rest : BitVec 39) :
    Is74 s ((BitVec.ofNat 6 0o74 ++ BitVec.ofNat 3 s : BitVec 9) ++ rest) :=
  ⟨(BitVec.extractLsb'_append_eq_of_le (by omega)).trans BitVec.extractLsb'_append_eq_left,
    (BitVec.extractLsb'_append_eq_of_le (by omega)).trans BitVec.extractLsb'_append_eq_right⟩

theorem is74_class74 (s : Nat) : Is74 s (class74 s) := is74_append s 0

theorem Is74.setBits {s : Nat} {w : Word} (h : Is74 s w) {lo k : Nat} (v : BitVec k) (hin : lo + k ≤ 39) :
    Is74 s (setBits w lo v) where
  code := (bits_setBits_apart w lo v 42 6 (by omega) (by omega)).trans h.code
  digit := (bits_setBits_apart w lo v 39 3 (by omega) (by omega)).trans h.digit

/-- Three fields of a 74.s lie below its third digit and apart from each other. -/
def FieldsApart (lo1 k1 lo2 k2 lo3 k3 : Nat) : Prop :=
  lo1 + k1 ≤ 39 ∧ lo2 + k2 ≤ 39 ∧ lo3 + k3 ≤ 39 ∧ (lo1 + k1 ≤ lo2 ∨ lo2 + k2 ≤ lo1)
    ∧ (lo1 + k1 ≤ lo3 ∨ lo3 + k3 ≤ lo1) ∧ (lo2 + k2 ≤ lo3 ∨ lo3 + k3 ≤ lo2)

/-- The validity of a layout, instruction by instruction. -/
theorem IoLayout.valid_iff (l : IoLayout) : l.valid = true ↔
    FieldsApart l.connX 2 l.connC 12 l.connN 15 ∧ FieldsApart l.extfX 2 l.extfC 12 l.extfN 15
      ∧ FieldsApart l.begrX 2 l.begrM 15 l.begrN 15 ∧ FieldsApart l.begwX 2 l.begwM 15 l.begwN 15
      ∧ l.copyX + 2 ≤ 39 ∧ l.clchX + 2 ≤ 39
      ∧ l.ccwdX + 2 ≤ 39 ∧ l.ccwdN + 15 ≤ 39 ∧ (l.ccwdX + 2 ≤ l.ccwdN ∨ l.ccwdN + 15 ≤ l.ccwdX) := by
  simp only [valid, apart, FieldsApart, Bool.and_eq_true, decide_eq_true_eq, and_assoc]

theorem decodeEncoded_is74 {l : Layouts} {i : Instr} {s : Nat} {w : Word} (he : encode l i = .full w) (hw : Is74 s w)
    (hd : decode74 l.io w = i) : decodeEncoded l (encode l i) = .instr i := by
  rw [he, decodeEncoded, decode_of_code74 hw.code, hd]

/-- An instruction that the decoder reads from the third digit and three fields is read back. -/
theorem decodeEncoded_threeFields {l : Layouts} {i : Instr} {s lo1 k1 lo2 k2 lo3 k3 : Nat} {x : BitVec k1}
    {y : BitVec k2} {z : BitVec k3} (h : FieldsApart lo1 k1 lo2 k2 lo3 k3)
    (he : encode l i = .full (setBits (setBits (setBits (class74 s) lo1 x) lo2 y) lo3 z))
    (hd : ∀ w, Is74 s w → bits w lo1 k1 = x → bits w lo2 k2 = y → bits w lo3 k3 = z → decode74 l.io w = i) :
    decodeEncoded l (encode l i) = .instr i := by
  obtain ⟨hin1, hin2, hin3, h12, h13, h23⟩ := h
  have hw := (((is74_class74 s).setBits x hin1).setBits y hin2).setBits z hin3
  refine decodeEncoded_is74 he hw (hd _ hw ?_ ?_ ?_)
  · rw [bits_setBits_apart _ _ _ _ _ (by omega) (by omega), bits_setBits_apart _ _ _ _ _ (by omega) (by omega),
      bits_setBits_same _ _ _ (by omega)]
  · rw [bits_setBits_apart _ _ _ _ _ (by omega) (by omega), bits_setBits_same _ _ _ (by omega)]
  · exact bits_setBits_same _ _ _ (by omega)

section
variable {l : Layouts}

theorem decodeEncoded_conn (h : FieldsApart l.io.connX 2 l.io.connC 12 l.io.connN 15) (x : BitVec 2) (c : BitVec 12)
    (n : Addr) : decodeEncoded l (encode l (.conn x c n)) = .instr (.conn x c n) :=
  decodeEncoded_threeFields h rfl fun w hw hx hc hn => by
    rw [decode74, hw.digit, hx, hc, hn]
    rfl

theorem decodeEncoded_extf (h : FieldsApart l.io.extfX 2 l.io.extfC 12 l.io.extfN 15) (x : BitVec 2) (c : BitVec 12)
    (n : Addr) : decodeEncoded l (encode l (.extf x c n)) = .instr (.extf x c n) :=
  decodeEncoded_threeFields h rfl fun w hw hx hc hn => by
    rw [decode74, hw.digit, hx, hc, hn]
    rfl

theorem decodeEncoded_begr (h : FieldsApart l.io.begrX 2 l.io.begrM 15 l.io.begrN 15) (x : BitVec 2) (m n : Addr) :
    decodeEncoded l (encode l (.begr x m n)) = .instr (.begr x m n) :=
  decodeEncoded_threeFields h rfl fun w hw hx hm hn => by
    rw [decode74, hw.digit, hx, hm, hn]
    rfl

theorem decodeEncoded_begw (h : FieldsApart l.io.begwX 2 l.io.begwM 15 l.io.begwN 15) (x : BitVec 2) (m n : Addr) :
    decodeEncoded l (encode l (.begw x m n)) = .instr (.begw x m n) :=
  decodeEncoded_threeFields h rfl fun w hw hx hm hn => by
    rw [decode74, hw.digit, hx, hm, hn]
    rfl

theorem decodeEncoded_copy (h : l.io.copyX + 2 ≤ 39) (x : BitVec 2) :
    decodeEncoded l (encode l (.copy x)) = .instr (.copy x) := by
  have hw := (is74_class74 4).setBits x h
  refine decodeEncoded_is74 rfl hw ?_
  rw [decode74, hw.digit, bits_setBits_same _ _ _ (by omega)]
  rfl

theorem decodeEncoded_clch (h : l.io.clchX + 2 ≤ 39) (x : BitVec 2) :
    decodeEncoded l (encode l (.clch x)) = .instr (.clch x) := by
  have hw := (is74_class74 5).setBits x h
  refine decodeEncoded_is74 rfl hw ?_
  rw [decode74, hw.digit, bits_setBits_same _ _ _ (by omega)]
  rfl

theorem decodeEncoded_ccwd (hx : l.io.ccwdX + 2 ≤ 39) (hn : l.io.ccwdN + 15 ≤ 39)
    (hxn : l.io.ccwdX + 2 ≤ l.io.ccwdN ∨ l.io.ccwdN + 15 ≤ l.io.ccwdX) (x : BitVec 2) (n : Addr) :
    decodeEncoded l (encode l (.ccwd x n)) = .instr (.ccwd x n) := by
  have hw := ((is74_class74 6).setBits x hx).setBits n hn
  have hreadX : bits (setBits (setBits (class74 6) l.io.ccwdX x) l.io.ccwdN n) l.io.ccwdX 2 = x :=
    (bits_setBits_apart _ _ _ _ _ (by omega) (by omega)).trans (bits_setBits_same _ _ _ (by omega))
  refine decodeEncoded_is74 rfl hw ?_
  rw [decode74, hw.digit, hreadX, bits_setBits_same _ _ _ (by omega)]
  rfl

theorem decodeEncoded_illegal747_word (rest : BitVec 39) :
    decodeEncoded l (encode l (.illegal747 (.word rest))) = .instr (.illegal747 (.word rest)) := by
  have hw := is74_append 7 rest
  have hrest : bits ((BitVec.ofNat 6 0o74 ++ BitVec.ofNat 3 7 : BitVec 9) ++ rest) 0 39 = rest :=
    BitVec.extractLsb'_append_eq_right
  refine decodeEncoded_is74 rfl hw ?_
  rw [decode74, hw.digit, hrest]
  rfl

end

theorem decodeEncoded_illegal63 (l : Layouts) (rest : BitVec 42) (hwf : (Instr.illegal63 rest).wf l = true) :
    decodeEncoded l (encode l (.illegal63 rest)) = .instr (.illegal63 rest) := by
  have hcode : bits ((0o63 : BitVec 6) ++ rest) 42 6 = 0o63 := BitVec.extractLsb'_append_eq_left
  have hrest : bits ((0o63 : BitVec 6) ++ rest) 0 42 = rest := BitVec.extractLsb'_append_eq_right
  rw [encode, decodeEncoded, decode_of_code63 hcode, decode63_of_illegal63Word hwf, hrest]

/-! ## Every instruction -/

/-- Settles O2. A well-formed half word stands in a row of the decoder's table; a whole word has f = 63 or 74, and the
fields of a valid layout do not touch each other. -/
theorem decodeEncode : Obligations.DecodeEncode := by
  intro l i hl hwf
  simp only [Layouts.valid, Bool.and_eq_true, IoLayout.valid_iff] at hl
  obtain ⟨⟨⟨hconn, hextf, hbegr, hbegw, hcopy, hclch, hccwd⟩, -⟩, hbank⟩ := hl
  cases i with
  | ldch b v m => exact decode_characterWord b v 0 m l (.inl rfl)
  | stch b v m => exact decode_characterWord b v 5 m l (.inr rfl)
  | ubjp b m => exact decodeEncoded_jump hbank .ubjp b m hwf
  | brtj b m => exact decodeEncoded_jump hbank .brtj b m hwf
  | bjpl b m => exact decodeEncoded_jump hbank .bjpl b m hwf
  | illegal63 rest => exact decodeEncoded_illegal63 l rest hwf
  | conn x c n => exact decodeEncoded_conn hconn x c n
  | extf x c n => exact decodeEncoded_extf hextf x c n
  | begr x m n => exact decodeEncoded_begr hbegr x m n
  | begw x m n => exact decodeEncoded_begw hbegw x m n
  | copy x => exact decodeEncoded_copy hcopy x
  | clch x => exact decodeEncoded_clch hclch x
  | ccwd x n =>
    obtain ⟨hx, hn, hxn⟩ := hccwd
    exact decodeEncoded_ccwd hx hn hxn x n
  | illegal747 rest =>
    cases rest with
    | word rest => exact decodeEncoded_illegal747_word rest
    | half y => exact decodeEncoded_illegal747_half l y
  | iaq => rfl
  | ati b =>
    obtain ⟨h0, h7⟩ : b ≠ 0 ∧ b ≠ 7 := by simpa [Instr.wf] using hwf
    rw [encode, decodeEncoded_00, decode00_ati h0 h7]
  | illegal00 rest =>
    have hillegal : legal00 rest = false := by simpa [Instr.wf] using hwf
    rw [encode, decodeEncoded_00, decode00_illegal hillegal]
  | illegal26 rest | illegal27 rest | illegal62 rest =>
    exact decodeEncoded_wide l (by decide) (fun w hf => by rw [decode24, hf]; rfl) rest
  | ajp c m | qjp c m =>
    exact decodeEncoded_conditional l (by decide) (fun w hf => by rw [decode24, hf]; rfl) false c m
  | arj c m | qrj c m =>
    exact decodeEncoded_conditional l (by decide) (fun w hf => by rw [decode24, hf]; rfl) true c m
  | slj m | sj1 m | sj2 m | sj3 m | rtj m | rj1 m | rj2 m | rj3 m => exact decodeEncoded_75 l _ m
  | sls m | ss1 m | ss2 m | ss3 m | srj m | sr1 m | sr2 m | sr3 m => exact decodeEncoded_76 l _ m
  | inf y | aug y | sen y | eub y | elb y | illegal777 y => exact decodeEncoded_77 l _ y
  | cis | cms | cpr => exact decodeEncoded_77 l _ _
  | undefined772 y =>
    obtain ⟨h0, h1⟩ : y ≠ 0 ∧ y ≠ 1 := by simpa [Instr.wf] using hwf
    rw [encode, decodeEncoded_77]
    exact congrArg Decoded.instr ((if_neg h0).trans (if_neg h1))
  | undefined774 y =>
    have h0 : y ≠ 0 := by simpa [Instr.wf] using hwf
    rw [encode, decodeEncoded_77]
    exact congrArg Decoded.instr (if_neg h0)
  | _ b m => exact decodeEncoded_classI l (by decide) (fun w hf => by rw [decode24, hf]; rfl) b m

end Sys2Proof

namespace Sys2Proof.Machine

/-- The illegal codes have one meaning, whatever their other bits (R102). -/
theorem exec_illegal {r : BitVec 18} {r42 : BitVec 42} {r39 : Rest747} {y : Addr} {i : Instr}
    (hi : i ∈ [Instr.illegal00 r, .illegal26 r, .illegal27 r, .illegal62 r, .illegal63 r42, .illegal747 r39,
      .illegal777 y]) (s : State) : exec i s = s.illegal := by
  simp only [List.mem_cons, List.not_mem_nil, or_false] at hi
  rcases hi with rfl | rfl | rfl | rfl | rfl | rfl | rfl <;> rfl

/-- Settles O54: an illegal code is the Category III entry, which nothing disturbs. -/
theorem illegalCodes : Obligations.IllegalCodes := by
  intro s r r42 r39 y i hquiet hi
  obtain ⟨hslots, hparity⟩ := hquiet
  rw [exec_illegal hi, s.illegal_undisturbed hslots hparity]

end Sys2Proof.Machine

/-! Sequencing and addressing (40_sequencing R121 to R136): the index registers and the modified address, the ends of
an instruction, one level of indirect addressing, and the step of a machine that is ready in a quiet environment. -/

namespace Sys2Proof.Machine

/-! ## Index registers -/

section
variable (f : IndexFile) (v : Addr)

theorem Desig.eq_cases (b : Desig) : b = 0 ∨ b = 1 ∨ b = 2 ∨ b = 3 ∨ b = 4 ∨ b = 5 ∨ b = 6 ∨ b = 7 := by
  revert b
  decide

/-- A register is a field of its own, and there is no register 0 or 7 (R24, R136). -/
theorem IndexFile.get_set (b c : Desig) :
    (f.set b v).get c = if c = b ∧ b ≠ 0 ∧ b ≠ 7 then v else f.get c := by
  rcases Desig.eq_cases b with rfl | rfl | rfl | rfl | rfl | rfl | rfl | rfl
  all_goals
    rcases Desig.eq_cases c with rfl | rfl | rfl | rfl | rfl | rfl | rfl | rfl
    all_goals rfl

theorem IndexFile.get_set_same {b : Desig} (h0 : b ≠ 0) (h7 : b ≠ 7) : (f.set b v).get b = v := by
  rw [f.get_set v, if_pos ⟨rfl, h0, h7⟩]

theorem IndexFile.get_set_other {b c : Desig} (h : c ≠ b) : (f.set b v).get c = f.get c := by
  rw [f.get_set v, if_neg fun hsame => h hsame.1]

end

/-- Modified by an index register (R132). -/
theorem State.modified_indexed (s : State) {b : Desig} (hb : b ≠ 0) (m : Addr) :
    s.modified b m = add15 m (s.b b) := if_neg hb

/-- Settles O11: the laws of the index file, and B^b for each b. -/
theorem addressing : Obligations.Addressing := by
  refine ⟨fun s m => ⟨rfl, ?_, ?_, ?_, ?_, ?_, ?_⟩, fun s b c v => ⟨?_, ?_, rfl, rfl, rfl, rfl⟩⟩
  · exact s.modified_indexed (by decide) m
  · exact s.modified_indexed (by decide) m
  · exact s.modified_indexed (by decide) m
  · exact s.modified_indexed (by decide) m
  · exact s.modified_indexed (by decide) m
  · exact s.modified_indexed (by decide) m
  · exact fun h0 h7 => s.index.get_set_same v h0 h7
  · exact fun h => s.index.get_set_other v h

/-! ## Ends of an instruction -/

section
variable {s : State}

/-- The upper instruction ends: the lower one of the same word is next (R122). -/
theorem State.next24_upper (h : s.half = .upper) :
    s.next24 = { s.finish with half := .lower, passedExit := s.pass } := by
  simp only [State.next24, h]

/-- The lower instruction ends: the word after it is next (R122). -/
theorem State.next24_lower (h : s.half = .lower) : s.next24 = s.advance := by
  simp only [State.next24, h]

theorem State.nextP_enabled (h : s.console.disableAdvanceP = false) : s.nextP = s.p + 1 := by
  simp only [State.nextP, h, Bool.false_eq_true, if_false]

theorem State.advance_enabled (h : s.console.disableAdvanceP = false) :
    s.advance = { s.finish with p := s.p + 1, half := .upper, needRni := true, passedExit := s.leave } := by
  rw [State.advance, State.nextP_enabled h]

end

/-- The end of CCWD's wait is an advance: what it forgets, that CCWD waits, the advance does not look at (R392). -/
theorem State.endWait_eq_advance (s : State) :
    s.endWait = { s.advance with
      ccwdWait := none
      stopAfterRead := s.stopAfterRead || (s.console.stepMode && s.running && !s.stopRequest) } := rfl

/-- Settles O6: each end is `finish`, which uses up the augment and forgets the progress, at a new position. -/
theorem endOfInstruction : Obligations.EndOfInstruction := by
  intro s t h hadvance
  refine ⟨fun hupper => ?_, State.next24_lower, ?_, rfl, rfl, s.endWait_eq_advance, rfl⟩
  · exact State.next24_upper hupper
  · exact State.advance_enabled hadvance

/-! ## One level of indirect addressing -/

theorem State.resolve_indirect (s : State) (m : Addr) (k : Result) : s.resolve 7 m k = s.indirect m := if_pos rfl

section
variable {s : State} (m : Addr)

/-- Whatever the instruction does with its address or operand, it resolves its designator first (R132, R133). -/
theorem exec_resolves {i : Instr} (hi : i ∈ indirectForms m) : ∃ k, exec i s = s.resolve 7 m k := by
  revert i
  simp only [indirectForms, List.forall_mem_cons, List.not_mem_nil, false_implies, implies_true, and_true]
  generalize (7 : Desig) = b
  and_intros
  all_goals exact ⟨_, rfl⟩

theorem exec_indirectForms {i : Instr} (hi : i ∈ indirectForms m) : exec i s = s.indirect m := by
  obtain ⟨k, hk⟩ := exec_resolves m hi
  exact hk.trans (s.resolve_indirect m k)

/-- With the option installed a floating point instruction reads its operand first, as ADD does (R218, R219). -/
theorem State.floating_indirect (hopt : s.config.floatingOption = true) (low : BitVec 2)
    (f : Word → Word → AugT → FpResult) : s.floating low 7 m f = s.indirect m := by
  rw [State.floating, if_pos hopt, State.withOperand, State.effective, State.resolve_indirect]

theorem exec_floatingForms_indirect (hopt : s.config.floatingOption = true) {i : Instr}
    (hi : i ∈ floatingForms 7 m) : exec i s = s.indirect m := by
  simp only [floatingForms, List.mem_cons, List.not_mem_nil, or_false] at hi
  rcases hi with rfl | rfl | rfl | rfl
  · exact State.floating_indirect m hopt 0 fad
  · exact State.floating_indirect m hopt 1 fsb
  · exact State.floating_indirect m hopt 2 fmu
  · exact State.floating_indirect m hopt 3 fdv

/-- An indirect level in a quiet environment changes U only, and the model's progress (R133, R134). -/
theorem State.indirect_quiet (hq : s.Quiet) (hw : s.hasWord m = true) :
    s.indirect m = .next (s.putIndirect (Memory.word s.memory m)) :=
  s.readOperand_quiet m _ hq hw

end

/-- Settles O10: every form comes to the same indirect level, a floating point one because its option is installed. -/
theorem indirectLevel : Obligations.IndirectLevel := by
  intro s m i hq hw hi
  have hlevel : exec i s = s.indirect m := by
    rcases hi with hi | ⟨hi, hopt⟩
    · exact exec_indirectForms m hi
    · exact exec_floatingForms_indirect m hopt hi
  rw [hlevel, State.indirect_quiet m hq hw]
  rfl

/-! ## The step of a ready machine -/

section
variable {s : State}

/-- A machine that is ready and has the program step in U executes it (R121). -/
theorem step_ready_held (hready : s.Ready) (hstop : s.stopRequest = false) (hrni : s.needRni = false) :
    step s = s.execute := by
  obtain ⟨hmoves, hrunning, hwait, hsweep, hmode, hcat1, hrestart⟩ := hready
  simp [step, State.nextMove, State.program, State.readsOnly, hmoves, hrunning, hwait, hsweep, hmode, hcat1, hrestart,
    hstop, hrni]

/-- Outside Step Mode nothing follows the instruction (R473). -/
theorem State.afterStep_running (hmode : s.console.stepMode = false) (r : Result) : s.afterStep r = r := by
  simp [State.afterStep, hmode]

theorem State.execute_decoded (hmode : s.console.stepMode = false) (hresumed : s.resumed = none) {i : Instr}
    (hi : decode s.config.layouts s.half s.u = .instr i) : s.execute = exec i s := by
  simp only [State.execute, hresumed, hi, State.afterStep_running hmode]

/-- A bank jump goes on with its local values (R134). -/
theorem State.execute_resumed (hmode : s.console.stepMode = false) {i : Instr} (hi : s.resumed = some i) :
    s.execute = exec i s := by
  simp only [State.execute, hi, State.afterStep_running hmode]

/-- Read Next Instruction in a quiet environment reads the word at P into U (R69, R121). -/
theorem State.fetch_quiet (hq : s.Quiet) (hw : s.hasWord s.p = true) (ha : s.outOfBounds s.p = false)
    (k : State → Result) : s.fetch k = k s.loadStep := by
  obtain ⟨hslots, hparity, -, -⟩ := hq
  simp [State.fetch, State.fetched, ha, hw, s.slot_undisturbed _ hslots, hparity]

theorem State.loadStep_quiet (hq : s.Quiet) : s.loadStep = { s with
    u := Memory.word s.memory s.p, needRni := false, stopAfterRead := false, slsStopped := false
    progress := .idle, resumed := none } := by
  obtain ⟨-, -, hbreak, hstop⟩ := hq
  have hrequest : (s.stopRequest || s.breakInstruction s.p) = s.stopRequest := by
    simp [State.breakInstruction, hbreak, hstop]
  rw [State.loadStep, hrequest]

theorem State.sampleAndExecute_notDue (hdue : s.cat1Ready = false) : s.sampleAndExecute = s.execute := by
  simp [State.sampleAndExecute, hdue]

end

/-- The read of an instruction makes no interrupt due (R432). -/
theorem State.loadStep_cat1Ready (s : State) : s.loadStep.cat1Ready = s.cat1Ready := rfl

/-- Settles O5: the turn is the fetch or the execution, and both come to the instruction decoded or resumed. -/
theorem stepRunsDecoded : Obligations.StepRunsDecoded := by
  intro s i hready hq
  have ⟨_, _, _, hstop⟩ := hq
  have ⟨_, _, _, _, hmode, hdue, _⟩ := hready
  refine ⟨fun hrni hw ha hi => ?_, fun hrni hresumed hi => ?_, fun hrni hi => ?_⟩
  · calc step s
        = s.fetch State.sampleAndExecute := step_ready_fetch hready hstop hrni
      _ = s.loadStep.sampleAndExecute := State.fetch_quiet hq hw ha _
      _ = s.loadStep.execute := State.sampleAndExecute_notDue (s.loadStep_cat1Ready.trans hdue)
      _ = exec i s.loadStep := State.execute_decoded (s := s.loadStep) hmode rfl hi
      _ = _ := by rw [State.loadStep_quiet hq]
  · exact (step_ready_held hready hstop hrni).trans (State.execute_decoded hmode hresumed hi)
  · exact (step_ready_held hready hstop hrni).trans (State.execute_resumed hmode hi)

end Sys2Proof.Machine

/-! Transmission (41_transmission R151 to R169): each instruction comes to one read, one store or one modified
quantity. -/

namespace Sys2Proof.Machine

section
variable {s : State} {b : Desig} {m : Addr}

/-- An operand that can be read is delivered to the instruction in the state as it stands. -/
theorem State.withOperand_canRead (hs : s.CanRead b m) (k : State → Word → Result) :
    s.withOperand b m k = k s (s.operand b m) := by
  obtain ⟨hq, hb, hword⟩ := hs
  exact s.withOperand_quiet b m k hq hb hword

/-- An index load reads the word at m itself: b names the register to load, and 0 names none (R158, R159). -/
theorem State.resolve_readOperand_quiet (hq : s.Quiet) (hb : b ≠ 7) (hword : s.hasWord m = true)
    (k : State → Word → Result) : s.resolve b m (s.readOperand m k) = k s (Memory.word s.memory m) :=
  (s.resolve_direct b m _ hb).trans (s.readOperand_quiet m k hq hword)

end

/-- Settles O13: the loads of A and Q read their operand, the index loads the word at m. -/
theorem operandLoads : Obligations.OperandLoads := by
  constructor
  · intro s b m hs
    have hload := State.withOperand_canRead hs
    exact ⟨hload _, hload _, hload _, hload _⟩
  · intro s b m hq hb hword
    have hload := State.resolve_readOperand_quiet hq hb hword
    exact ⟨hload _, hload _⟩

/-- Settles O15: the instances of the two rules of stores in bounds, `exec_wordStore` and `exec_fieldStore`. -/
theorem stores : Obligations.Stores := by
  refine ⟨fun s b m hs => ?_, fun s b m hq hb => ⟨fun hword hin => ?_, fun hs => ?_⟩⟩
  · exact ⟨exec_wordStore hs (by simp), exec_wordStore hs (by simp), exec_wordStore hs (by simp)⟩
  · exact ⟨exec_fieldStore (m := m) hq hb hword hin (by simp), exec_fieldStore (m := m) hq hb hword hin (by simp)⟩
  · obtain ⟨⟨_, _, hword⟩, hin⟩ := hs
    exact ⟨exec_fieldStore (m := m) hq hb hword hin (by simp), exec_fieldStore (m := m) hq hb hword hin (by simp)⟩

/-- Settles O14: IAQ and ATI have no designator to resolve; the others, b not being 7, go on at once, ENQ, ENA and INA
with the modified quantity, ENI and INI with the address field as it stands. -/
theorem registerTransmission : Obligations.RegisterTransmission := by
  intro s b y hb
  have hdirect := fun k => s.resolve_direct b y k hb
  exact ⟨rfl, rfl, hdirect _, hdirect _, hdirect _, hdirect _, hdirect _⟩

end Sys2Proof.Machine

/-! One's complement numbers (00_scope R12, 42_arithmetic R180 to R187), for every width: the value of a pattern, and the
sum of two patterns. -/

namespace Sys2Proof.Machine

/-! ## The value of a pattern -/

section
variable {n : Nat}

/-- A pattern with a zero sign counts up from zero, one with a sign of one counts up to the all-ones pattern, which is
zero as well. -/
theorem onesValue_cases (x : BitVec n) :
    (2 * x.toNat < 2 ^ n ∧ onesValue x = x.toNat)
      ∨ (2 ^ n ≤ 2 * x.toNat ∧ onesValue x = x.toNat - (2 ^ n - 1 : Nat)) := by
  have hlt := x.isLt
  unfold onesValue
  cases hsign : x.msb with
  | false => exact .inl ⟨BitVec.msb_eq_false_iff_two_mul_lt.1 hsign, if_neg Bool.false_ne_true⟩
  | true =>
    refine .inr ⟨BitVec.msb_eq_true_iff_two_mul_ge.1 hsign, ?_⟩
    rw [if_pos rfl, BitVec.toNat_not]
    omega

theorem two_mul_natAbs_onesValue_lt (x : BitVec n) : 2 * (onesValue x).natAbs < 2 ^ n := by
  have hlt := x.isLt
  have hx := onesValue_cases x
  omega

/-- All ones is negative zero. -/
theorem onesValue_allOnes (n : Nat) : onesValue (BitVec.allOnes n) = 0 := by
  have hvalue := onesValue_cases (BitVec.allOnes n)
  rw [BitVec.toNat_allOnes] at hvalue
  omega

/-- A value that is not zero shows its sign. -/
theorem msb_eq_of_onesValue_ne_zero {x : BitVec n} (hx : onesValue x ≠ 0) : x.msb = decide (onesValue x < 0) := by
  unfold onesValue at hx ⊢
  cases hsign : x.msb with
  | false =>
    rw [if_neg Bool.false_ne_true]
    exact (decide_eq_false (by omega)).symm
  | true =>
    rw [hsign, if_pos rfl] at hx
    rw [if_pos rfl]
    exact (decide_eq_true (by omega)).symm

end

/-! ## The sum of two patterns -/

section
variable {n : Nat} (a b : BitVec n)

theorem eq_allOnes_iff_toNat : a = BitVec.allOnes n ↔ a.toNat = 2 ^ n - 1 := by
  rw [← BitVec.toNat_inj, BitVec.toNat_allOnes]

/-- The sum as a number: the end-around carry takes the modulus 2^n - 1 off, and all-ones comes from two all-ones
operands alone (R130, R180). -/
theorem onesAdd_cases :
    (a.toNat + b.toNat < 2 ^ n - 1 ∧ (onesAdd a b).toNat = a.toNat + b.toNat)
      ∨ (a.toNat = 2 ^ n - 1 ∧ b.toNat = 2 ^ n - 1 ∧ (onesAdd a b).toNat = 2 ^ n - 1)
      ∨ (¬ (a.toNat = 2 ^ n - 1 ∧ b.toNat = 2 ^ n - 1) ∧ 2 ^ n - 1 ≤ a.toNat + b.toNat
        ∧ (onesAdd a b).toNat = a.toNat + b.toNat - (2 ^ n - 1)) := by
  have ha := a.isLt
  have hb := b.isLt
  simp only [onesAdd, eq_allOnes_iff_toNat]
  by_cases hcarry : 2 ^ n ≤ a.toNat + b.toNat
  · rw [if_pos hcarry]
    split
    · omega
    · rw [BitVec.toNat_ofNat, Nat.mod_eq_of_lt (by omega)]
      omega
  · rw [if_neg hcarry]
    split
    · rw [show (0 : BitVec n).toNat = 0 from BitVec.toNat_zero]
      omega
    · rw [BitVec.toNat_ofNat, Nat.mod_eq_of_lt (by omega)]
      omega

/-- The sum is taken modulo 2^n - 1 (R130, R131). -/
theorem toNat_onesAdd_mod : (onesAdd a b).toNat % (2 ^ n - 1) = (a.toNat + b.toNat) % (2 ^ n - 1) := by
  rcases onesAdd_cases a b with ⟨_, hsum⟩ | ⟨ha, hb, hsum⟩ | ⟨_, hlarge, hsum⟩
  · rw [hsum]
  · rw [hsum, ha, hb, Nat.add_mod_right]
  · rw [hsum]
    exact (Nat.mod_eq_sub_mod hlarge).symm

/-- Two all-ones patterns are the only ones with an all-ones sum (R130, R180). -/
theorem onesAdd_eq_allOnes_iff :
    onesAdd a b = BitVec.allOnes n ↔ a = BitVec.allOnes n ∧ b = BitVec.allOnes n := by
  have ha := a.isLt
  have hb := b.isLt
  have hsum := onesAdd_cases a b
  simp only [eq_allOnes_iff_toNat]
  omega

/-- A sum that fits has the value of the sum of its operands (R180). -/
theorem onesValue_onesAdd (hn : n ≠ 0) (hfits : 2 * (onesValue a + onesValue b).natAbs < 2 ^ n) :
    onesValue (onesAdd a b) = onesValue a + onesValue b := by
  have ha := onesValue_cases a
  have hb := onesValue_cases b
  have hvalue := onesValue_cases (onesAdd a b)
  have heven : 2 ^ (n - 1) * 2 = 2 ^ n := Nat.two_pow_pred_mul_two (Nat.pos_of_ne_zero hn)
  rcases onesAdd_cases a b with hsmall | hnegzero | hlarge <;> omega

/-- A sum does not fit exactly when operands of one sign give a sum of the other (R182). -/
theorem onesAdd_overflows_iff (hn : n ≠ 0) :
    2 ^ n ≤ 2 * (onesValue a + onesValue b).natAbs ↔ a.msb = b.msb ∧ (onesAdd a b).msb ≠ a.msb := by
  have halt := a.isLt
  have hblt := b.isLt
  have ha := onesValue_cases a
  have hb := onesValue_cases b
  have heven : 2 ^ (n - 1) * 2 = 2 ^ n := Nat.two_pow_pred_mul_two (Nat.pos_of_ne_zero hn)
  simp only [BitVec.msb_eq_decide, ne_eq, decide_eq_decide]
  rcases onesAdd_cases a b with hsmall | hnegzero | hlarge <;> omega

end

/-- The 48-bit overflow is the overflow of the sum at width 48 (R182). -/
theorem overflow48_iff (a b : Word) : overflow48 a b = true ↔ 2 ^ 48 ≤ 2 * (onesValue a + onesValue b).natAbs := by
  rw [overflow48, decide_eq_true_iff]
  omega

/-- Settles O1: the instances of the sum of two patterns at widths 48 and 15. -/
theorem adderSums : Obligations.AdderSums := by
  refine ⟨fun a b => ⟨fun hfits => ?_, onesAdd_eq_allOnes_iff a b, ?_⟩, fun a b => ⟨toNat_onesAdd_mod a b, ?_⟩⟩
  · refine onesValue_onesAdd a b (by decide) (Nat.lt_of_not_le fun hover => ?_)
    rw [(overflow48_iff a b).2 hover] at hfits
    cases hfits
  · exact (overflow48_iff a b).trans (onesAdd_overflows_iff a b (by decide))
  · exact onesAdd_eq_allOnes_iff a b

end Sys2Proof.Machine

/-! Fixed point arithmetic, storage skips and replace instructions (42_arithmetic R184 to R190, 44_logical_shift R246
and R247, 45_replace_test_search R270 to R276): the pattern of a product, a quotient and a remainder, and the rule of
the instructions that read a word and store it again. -/

namespace Sys2Proof.Machine

/-! ## The pattern of a value -/

section
variable {n : Nat} {v : Int}

theorem onesValue_onesEncode (hv : 2 * v.natAbs < 2 ^ n) : onesValue (onesEncode n v) = v := by
  have hvalue := onesValue_cases (onesEncode n v)
  by_cases hneg : v < 0
  · have hn : n ≠ 0 := by
      rintro rfl
      omega
    have heven : 2 ^ (n - 1) * 2 = 2 ^ n := Nat.two_pow_pred_mul_two (Nat.pos_of_ne_zero hn)
    have hpattern : (onesEncode n v).toNat = 2 ^ n - 1 - (-v).toNat := by
      rw [onesEncode, if_pos hneg, BitVec.toNat_not, BitVec.toNat_ofNat, Nat.mod_eq_of_lt (by omega)]
    omega
  · have hpattern : (onesEncode n v).toNat = v.toNat := by
      rw [onesEncode, if_neg hneg, BitVec.toNat_ofNat, Nat.mod_eq_of_lt (by omega)]
    omega

/-- Either zero has the value zero, so the free sign of a zero result does not show in its value (U8). -/
theorem onesValue_onesEncodeSigned (hv : 2 * v.natAbs < 2 ^ n) (negativeZero : Bool) :
    onesValue (onesEncodeSigned n v negativeZero) = v := by
  unfold onesEncodeSigned
  split
  · rename_i hzero
    rw [hzero.1]
    exact onesValue_allOnes n
  · exact onesValue_onesEncode hv

end

/-! ## Product, quotient and remainder -/

/-- The product of two words fits in 96 bits (R186). -/
theorem onesValue_product96 (a x : Word) : onesValue (product96 a x) = onesValue a * onesValue x := by
  refine onesValue_onesEncodeSigned ?_ _
  have ha := two_mul_natAbs_onesValue_lt a
  have hx := two_mul_natAbs_onesValue_lt x
  have hprod := Nat.mul_lt_mul'' ha hx
  rw [Nat.mul_mul_mul_comm] at hprod
  rw [Int.natAbs_mul]
  omega

section
variable {q a x : Word}

theorem divides_iff : divides q a x = true ↔ onesValue x ≠ 0 ∧ (quotient q a x).natAbs < 2 ^ 47 := by
  rw [divides, Bool.and_eq_true, decide_eq_true_iff, decide_eq_true_iff]

theorem natAbs_remainder_lt (hx : onesValue x ≠ 0) : (remainder q a x).natAbs < (onesValue x).natAbs := by
  rw [remainder, Int.natAbs_tmod]
  exact Nat.mod_lt _ (Int.natAbs_pos.2 hx)

/-- A remainder smaller than the divisor fits in a word (R187). -/
theorem onesValue_remainder (hx : onesValue x ≠ 0) (negativeZero : Bool) :
    onesValue (onesEncodeSigned 48 (remainder q a x) negativeZero) = remainder q a x := by
  have hlt := natAbs_remainder_lt (q := q) (a := a) hx
  have hword := two_mul_natAbs_onesValue_lt x
  exact onesValue_onesEncodeSigned (by omega) _

/-- A remainder that is not zero has the sign of the dividend, which is the sign of Q (R187). -/
theorem decide_remainder_neg (hr : remainder q a x ≠ 0) : decide (remainder q a x < 0) = q.msb := by
  have hdividend : onesValue (q ++ a : BitVec 96) ≠ 0 := fun hzero => hr (by rw [remainder, hzero, Int.zero_tmod])
  have hmsb := msb_eq_of_onesValue_ne_zero hdividend
  have hsign : (remainder q a x).sign = (onesValue (q ++ a : BitVec 96)).sign := by
    rw [remainder, Int.sign_tmod, if_neg fun hdvd => hr (Int.tmod_eq_zero_of_dvd hdvd)]
  rw [BitVec.msb_append, if_neg (by decide)] at hmsb
  rw [hmsb, decide_eq_decide, ← Int.sign_eq_neg_one_iff_neg, hsign, Int.sign_eq_neg_one_iff_neg]

end

/-- A division that is possible (R187). -/
theorem State.divide_of_divides {s : State} {x : Word} (h : divides s.q s.a x = true) :
    s.divide x = { s with
      a := onesEncodeSigned 48 (quotient s.q s.a x) (Config.quotientZeroNegative s.q.msb x.msb)
      q := onesEncodeSigned 48 (remainder s.q s.a x) (Config.remainderZeroNegative s.q.msb x.msb) } := if_pos h

/-- A divide fault sets IR bit 2 and leaves A and Q free (R187, U9). -/
theorem State.divide_of_not_divides {s : State} {x : Word} (h : ¬ divides s.q s.a x = true) :
    s.divide x = { s.setIr 2 with a := Config.divFaultA s.a s.q x, q := Config.divFaultQ s.a s.q x } := if_neg h

/-! ## The instructions that read their operand -/

section
variable {s : State} {b : Desig} {m : Addr}

/-- The four sums add to A what each makes of its operand (R184, R185, R246, R247). -/
theorem exec_sum (hs : s.CanRead b m) {i : Instr} {x : Word}
    (hi : (i, x) ∈ [(Instr.add b m, s.augmented (s.operand b m)), (.sub b m, ~~~(s.augmented (s.operand b m))),
      (.adl b m, s.q &&& s.operand b m), (.sbl b m, ~~~(s.q &&& s.operand b m))]) :
    exec i s = .next (s.addToA x).next24 := by
  have hread := State.withOperand_canRead hs
  simp only [List.mem_cons, List.not_mem_nil, or_false, Prod.mk.injEq] at hi
  rcases hi with ⟨rfl, rfl⟩ | ⟨rfl, rfl⟩ | ⟨rfl, rfl⟩ | ⟨rfl, rfl⟩
  all_goals exact hread _

theorem exec_mui (hs : s.CanRead b m) :
    exec (.mui b m) s = .next (s.setQA (product96 s.a (s.augmented (s.operand b m)))).next24 :=
  State.withOperand_canRead hs _

theorem exec_dvi (hs : s.CanRead b m) :
    exec (.dvi b m) s = .next (s.divide (s.augmented (s.operand b m))).next24 :=
  State.withOperand_canRead hs _

end

/-- Settles O22: A and IR bit 3 after each of the four sums are those of `addToA`. -/
theorem fixedPointSums : Obligations.FixedPointSums := by
  intro s b m i x hs hi
  exact exec_sum hs hi

/-- Settles O23: the product fits in 96 bits, whatever the sign of a zero. -/
theorem multiply : Obligations.Multiply := by
  intro s b m hs
  exact ⟨_, onesValue_product96 _ _, exec_mui hs⟩

/-- Settles O24: with a divisor and a quotient that fits the division is that of the integers, truncated; without, the
fault is taken. -/
theorem divide : Obligations.Divide := by
  refine ⟨fun s b m hs hx hq => ?_, fun s b m hs hfault => ?_⟩
  · refine ⟨_, _, ?_, ?_, ?_, (exec_dvi hs).trans (by rw [State.divide_of_divides (divides_iff.2 ⟨hx, hq⟩)])⟩
    · rw [onesValue_onesEncodeSigned (by unfold quotient; omega), onesValue_remainder hx]
      exact Int.tdiv_mul_add_tmod _ _
    · rw [onesValue_remainder hx]
      exact natAbs_remainder_lt hx
    · intro hrem
      rw [msb_eq_of_onesValue_ne_zero hrem]
      rw [onesValue_remainder hx] at hrem ⊢
      exact decide_remainder_neg hrem
  · have hno : ¬ divides s.q s.a (s.augmented (s.operand b m)) = true := by
      rw [divides_iff, quotient]
      omega
    exact ⟨_, _, (exec_dvi hs).trans (by rw [State.divide_of_not_divides hno])⟩

/-! ## The instructions that read a word and store it again -/

section
variable {s : State} {b : Desig} {m : Addr}

theorem State.quiet_setIrIf (hq : s.Quiet) (i : Nat) (c : Bool) : (s.setIrIf i c).Quiet := by
  simp only [State.Quiet, State.setIrIf_slots, State.setIrIf_badParity, State.setIrIf_console,
    State.setIrIf_stopRequest]
  exact hq

theorem State.hasWord_setIrIf (a : Addr) (i : Nat) (c : Bool) : (s.setIrIf i c).hasWord a = s.hasWord a := by
  simp only [State.hasWord, State.setIrIf_config]

/-- A read and a store of one word in bounds: the store is made in the state that `f` leaves (R75, R270). -/
theorem State.replace_inBounds {a : Addr} (hq : s.Quiet) (hword : s.hasWord a = true) (hin : s.outOfBounds a = false)
    (f : State → Word → State × Word) (k : State → Result) :
    s.replace a f k = (f s (Memory.word s.memory a)).1.writeWord a (f s (Memory.word s.memory a)).2 k := by
  rw [State.replace, hin, if_neg Bool.false_ne_true, State.readOperand_quiet _ _ _ hq hword]

/-- A replace in bounds puts the sum into A and back into the word (R270). -/
theorem State.replaceSum_canStore (hs : s.CanStore b m) (x y : State → Word → Word) :
    s.replaceSum b m x y = .next ({ s.setIrIf 3 (overflow48 (x s (s.operand b m)) (y s (s.operand b m))) with
      a := add48 (x s (s.operand b m)) (y s (s.operand b m))
      memory := Memory.setWord s.memory (s.modified b m) (add48 (x s (s.operand b m)) (y s (s.operand b m))) } :
        State).next24 := by
  obtain ⟨⟨hq, hb, hword⟩, hin⟩ := hs
  rw [State.replaceSum, State.effective_direct _ _ _ _ hb, State.replace_inBounds hq hword hin,
    State.writeWord_quiet _ _ _ _ (by exact State.quiet_setIrIf hq 3 _)
      (by exact (State.hasWord_setIrIf _ 3 _).trans hword)]
  simp only [State.overflowFault, State.setIrIf_memory, State.operand]

/-- SSH in bounds: the word is rotated, and the sign that it had decides the skip (R276). -/
theorem exec_ssh (hs : s.CanStore b m) :
    exec (.ssh b m) s = .next (({ s with
      memory := Memory.setWord s.memory (s.modified b m) (rotl (s.operand b m) 1) } : State).skipIf
        (s.operand b m).msb) := by
  obtain ⟨⟨hq, hb, hword⟩, hin⟩ := hs
  have hrun : execSsh b m s = _ := s.effective_direct b m _ hb
  rw [hin, if_neg Bool.false_ne_true, State.readOperand_quiet _ _ _ hq hword,
    State.writeWord_quiet _ _ _ _ hq hword] at hrun
  exact hrun

end

/-- Settles O32: the four sums of a replace. -/
theorem replaceInstructions : Obligations.ReplaceInstructions := by
  intro s b m i y hs hi
  simp only [List.mem_cons, List.not_mem_nil, or_false, Prod.mk.injEq] at hi
  rcases hi with ⟨rfl, rfl⟩ | ⟨rfl, rfl⟩ | ⟨rfl, rfl⟩ | ⟨rfl, rfl⟩
  all_goals exact State.replaceSum_canStore hs _ _

/-- Settles O25: ISK has no operand to read and only its comparison to make; SSK reads, SSH reads and stores. -/
theorem skips : Obligations.Skips := by
  refine ⟨fun s b y hb => ?_, fun s b m hs => State.withOperand_canRead hs _, fun s b m hs => exec_ssh hs⟩
  have hdirect := fun k => s.resolve_direct b y k hb
  exact ⟨fun heq => (hdirect _).trans (if_pos heq), fun hne => (hdirect _).trans (if_neg hne)⟩

end Sys2Proof.Machine

/-! The floating point option (43_floating R210 to R228): words taken apart and put together, normalization, the three
kinds of answer that the arithmetic gives, and the four instructions. -/

namespace Sys2Proof.Machine

/-! ## Words taken apart -/

theorem Unpacked.neg_le_exponent (u : Unpacked) : -1023 ≤ u.exponent := by
  unfold Unpacked.exponent
  split <;> omega

section
variable (w : Word)

theorem coef_unpack_lt : (unpack w).coef < 2 ^ 36 := (bits (mag48 w) 0 36).isLt

theorem biased_unpack_lt : (unpack w).biased < 2 ^ 11 := (bits (mag48 w) 36 11).isLt

/-- An 11-bit biased exponent stands for no more than 1023 (R211). -/
theorem exponent_unpack_le : (unpack w).exponent ≤ 1023 := by
  have hlt := biased_unpack_lt w
  unfold Unpacked.exponent
  split <;> omega

theorem msb_mag48 : (mag48 w).msb = false := by
  unfold mag48
  split
  · rename_i hneg
    rw [BitVec.msb_not, hneg]
    rfl
  · rename_i hpos
    exact Bool.eq_false_iff.2 hpos

theorem toNat_bits {n : Nat} (v : BitVec n) (lo len : Nat) : (bits v lo len).toNat = v.toNat / 2 ^ lo % 2 ^ len := by
  rw [bits, BitVec.extractLsb'_toNat, Nat.shiftRight_eq_div_pow]

/-- The fields of the magnitude make it up: its sign bit is zero (R210). -/
theorem toNat_mag48 : (mag48 w).toNat = (unpack w).biased * 2 ^ 36 + (unpack w).coef := by
  have hlt := BitVec.msb_eq_false_iff_two_mul_lt.1 (msb_mag48 w)
  simp only [unpack, toNat_bits]
  omega

end

/-! ## Words put together -/

/-- The biased exponent that stands for e (R211). -/
def biasedExponent (e : Int) : Nat := (if e ≥ 0 then e + 0o2000 else e + 0o1777).toNat

/-- A word, or its complement when the sign is negative (R210). -/
def withSign (neg : Bool) (w : Word) : Word := if neg then ~~~w else w

theorem packFp_zero (neg : Bool) (e : Int) : packFp neg e 0 = if neg then minus0 else plus0 := by
  cases neg with
  | false => rfl
  | true => exact BitVec.not_zero

theorem packFp_of_ne_zero (neg : Bool) (e : Int) {c : Nat} (hc : c ≠ 0) :
    packFp neg e c = withSign neg (BitVec.ofNat 48 (biasedExponent e * 2 ^ 36 + c)) := by
  rw [packFp, if_neg hc]
  rfl

theorem msb_withSign (neg : Bool) {w : Word} (hw : w.msb = false) : (withSign neg w).msb = neg := by
  cases neg with
  | false => exact hw
  | true => exact (BitVec.msb_not (x := w)).trans (by rw [hw]; rfl)

theorem mag48_withSign (neg : Bool) {w : Word} (hw : w.msb = false) : mag48 (withSign neg w) = w := by
  rw [mag48, msb_withSign neg hw]
  cases neg with
  | false => rfl
  | true => exact BitVec.not_not

/-- The sign and the magnitude of a word determine it (R210). -/
theorem withSign_mag48 (w : Word) : withSign w.msb (mag48 w) = w := by
  unfold mag48
  cases w.msb with
  | false => rfl
  | true => exact BitVec.not_not

section
variable {e : Int} (hlow : -1023 ≤ e) (hhigh : e ≤ 1023)

include hhigh in
theorem biasedExponent_lt : biasedExponent e < 2 ^ 11 := by
  unfold biasedExponent
  split <;> omega

include hlow in
/-- A biased exponent is read as it was written (R211). -/
theorem exponent_biasedExponent (neg : Bool) (c : Nat) : (Unpacked.mk neg (biasedExponent e) c).exponent = e := by
  unfold Unpacked.exponent biasedExponent
  simp only
  split <;> split <;> omega

include hlow in
theorem odd_biasedExponent (neg : Bool) (c : Nat) : (Unpacked.mk neg (biasedExponent e) c).odd = false := by
  refine decide_eq_false ?_
  unfold biasedExponent
  simp only
  split <;> omega

include hhigh in
/-- The unpack undoes the pack (R210, R211). -/
theorem unpack_packFp (neg : Bool) {c : Nat} (hc : 0 < c) (hlt : c < 2 ^ 36) :
    unpack (packFp neg e c) = ⟨neg, biasedExponent e, c⟩ := by
  have hbiased := biasedExponent_lt hhigh
  have hmsb : (BitVec.ofNat 48 (biasedExponent e * 2 ^ 36 + c)).msb = false := by
    rw [BitVec.msb_eq_false_iff_two_mul_lt, BitVec.toNat_ofNat, Nat.mod_eq_of_lt (by omega)]
    omega
  rw [packFp_of_ne_zero neg e (Nat.ne_of_gt hc)]
  simp only [unpack, msb_withSign neg hmsb, mag48_withSign neg hmsb, toNat_bits, BitVec.toNat_ofNat,
    Unpacked.mk.injEq, true_and]
  omega

end

/-- A biased exponent that is not 0o1777 is written as it was read (R211). -/
theorem biasedExponent_exponent {u : Unpacked} (hodd : u.odd = false) : biasedExponent u.exponent = u.biased := by
  have hne : u.biased ≠ 0o1777 := of_decide_eq_false hodd
  unfold biasedExponent Unpacked.exponent
  split <;> split <;> omega

/-- The pack undoes the unpack (R210, R211). -/
theorem packFp_unpack {w : Word} (hodd : (unpack w).odd = false) (hc : (unpack w).coef ≠ 0) :
    packFp (unpack w).neg (unpack w).exponent (unpack w).coef = w := by
  rw [packFp_of_ne_zero _ _ hc, biasedExponent_exponent hodd, ← toNat_mag48, BitVec.ofNat_toNat, BitVec.setWidth_eq]
  exact withSign_mag48 w

/-! ## Normalization -/

/-- Nothing is shifted left when bit 35 is set already, or the coefficient is zero (R213 item 3). -/
theorem leftNormalize_done (fuel : Nat) (e : Int) {c : Nat} (hc : ¬ (c ≠ 0 ∧ c < 2 ^ 35)) :
    leftNormalize fuel e c = (e, c) := by
  cases fuel with
  | zero => rfl
  | succ fuel => exact if_neg hc

/-- With enough shifts allowed the left shifts keep the value and set bit 35 (R213 item 3). -/
theorem leftNormalize_spec (fuel : Nat) (e : Int) {c : Nat} (hlt : c < 2 ^ 36) (hfuel : 2 ^ 35 ≤ c * 2 ^ fuel) :
    ∃ k : Nat, leftNormalize fuel e c = (e - k, c * 2 ^ k) ∧ 2 ^ 35 ≤ c * 2 ^ k ∧ c * 2 ^ k < 2 ^ 36 := by
  have hkeep {e : Int} {c : Nat} : (e, c) = (e - (0 : Nat), c * 2 ^ 0) := by
    rw [Int.natCast_zero, Int.sub_zero, Nat.pow_zero, Nat.mul_one]
  induction fuel generalizing e c with
  | zero =>
    rw [Nat.pow_zero] at hfuel
    exact ⟨0, by rw [leftNormalize_done 0 e (by omega)]; exact hkeep, by omega, by omega⟩
  | succ fuel ih =>
    by_cases hshift : c ≠ 0 ∧ c < 2 ^ 35
    · have hdouble (k : Nat) : 2 * c * 2 ^ k = c * 2 ^ (k + 1) := by
        rw [Nat.pow_succ', Nat.mul_left_comm, Nat.mul_assoc]
      have hstep : leftNormalize (fuel + 1) e c = leftNormalize fuel (e - 1) (2 * c) := if_pos hshift
      obtain ⟨k, hk, hset, hfits⟩ := ih (e - 1) (by omega) ((hdouble fuel).symm ▸ hfuel)
      rw [hdouble] at hk hset hfits
      exact ⟨k + 1, by rw [hstep, hk]; congr 1; omega, hset, hfits⟩
    · have hpos : c ≠ 0 := by
        rintro rfl
        omega
      exact ⟨0, by rw [leftNormalize_done _ e hshift]; exact hkeep, by omega, by omega⟩

/-- A coefficient that fits is not shifted right (R213 item 2). -/
theorem rightNormalize_of_lt (e : Int) {c : Nat} (hc : c < 2 ^ 36) : rightNormalize e c = (e, c) :=
  if_neg (Nat.not_le.2 hc)

/-- A coefficient that has outgrown its 36 bits is shifted right by one place (R213 item 2). -/
theorem rightNormalize_of_le (e : Int) {c : Nat} (hc : 2 ^ 36 ≤ c) : rightNormalize e c = (e + 1, c / 2) := if_pos hc

/-- With t1 the left shifts are left out (R217). -/
theorem normalize_true (e : Int) (c : Nat) : normalize e c true = rightNormalize e c := rfl

theorem normalize_false (e : Int) (c : Nat) :
    normalize e c false = leftNormalize 36 (rightNormalize e c).1 (rightNormalize e c).2 := rfl

/-- A zero coefficient and a coefficient with bit 35 set stay as they are. -/
theorem normalize_done (e : Int) {c : Nat} (hlt : c < 2 ^ 36) (hc : c = 0 ∨ 2 ^ 35 ≤ c) (t1 : Bool) :
    normalize e c t1 = (e, c) := by
  cases t1 with
  | true => exact rightNormalize_of_lt e hlt
  | false =>
    rw [normalize_false, rightNormalize_of_lt e hlt]
    exact leftNormalize_done 36 e (by omega)

/-- One bit too many goes out on the right, and bit 35 is set then. -/
theorem normalize_of_le (e : Int) {c : Nat} (hle : 2 ^ 36 ≤ c) (hlt : c < 2 ^ 37) (t1 : Bool) :
    normalize e c t1 = (e + 1, c / 2) := by
  cases t1 with
  | true => exact rightNormalize_of_le e hle
  | false =>
    rw [normalize_false, rightNormalize_of_le e hle]
    exact leftNormalize_done 36 _ (by omega)

/-- The left shifts keep the value and set bit 35 of a coefficient that is not zero (R213 item 3). -/
theorem normalize_left (e : Int) {c : Nat} (hpos : 0 < c) (hlt : c < 2 ^ 36) :
    ∃ k : Nat, normalize e c false = (e - k, c * 2 ^ k) ∧ 2 ^ 35 ≤ c * 2 ^ k ∧ c * 2 ^ k < 2 ^ 36 := by
  rw [normalize_false, rightNormalize_of_lt e hlt]
  exact leftNormalize_spec 36 e hlt (by omega)

/-- Without a right shift the exponent does not grow. -/
theorem normalize_exponent_le (e : Int) {c : Nat} (hlt : c < 2 ^ 36) (t1 : Bool) : (normalize e c t1).1 ≤ e := by
  rcases Nat.eq_zero_or_pos c with hzero | hpos
  · exact Int.le_of_eq (congrArg Prod.fst (normalize_done e hlt (.inl hzero) t1))
  · cases t1 with
    | true => exact Int.le_of_eq (congrArg Prod.fst (rightNormalize_of_lt e hlt))
    | false =>
      obtain ⟨k, hk, -⟩ := normalize_left e hpos hlt
      rw [hk]
      omega

/-! ## The three kinds of answer -/

/-- What the arithmetic answers where it has no divide fault: a zero, any result for an operand that is open (U10), or a
finished one (R213 to R215). -/
inductive FpAnswer : FpResult → Prop
  | zero (neg : Bool) : FpAnswer (zeroFp neg)
  | odd (op : FpOp) (x y : Word) (t : AugT) : FpAnswer (oddFp op x y t)
  | finished (op : FpOp) (x y : Word) (t : AugT) (neg : Bool) (r : Int × Nat) (q : Word) :
      FpAnswer (finishFp op x y t neg r q)

/-- An underflow leaves A and Q positive zero, and is not an overflow as well (R215). -/
def FpResult.UnderflowClears (r : FpResult) : Prop :=
  r.underflow = true → r.a = plus0 ∧ r.q = plus0 ∧ r.overflow = false

/-- A finished answer is formed from its exponent and coefficient (R213 items 5 and 6, R214, R215). -/
theorem formed_finishFp (op : FpOp) (x y : Word) (t : AugT) (neg : Bool) (r : Int × Nat) (q : Word) :
    (finishFp op x y t neg r q).Formed neg r q := by
  unfold finishFp
  split
  · rename_i hzero
    exact ⟨fun h => absurd hzero h, fun h => absurd hzero h, fun h => absurd hzero h,
      fun _ => ⟨packFp_zero neg 0, rfl, rfl, rfl, decide_eq_true_iff⟩⟩
  split
  · exact ⟨fun _ _ _ => by omega, fun _ _ => ⟨rfl, rfl, rfl⟩, fun _ _ => by omega, fun _ => by contradiction⟩
  split
  · exact ⟨fun _ _ _ => by omega, fun _ _ => by omega, fun _ _ => rfl, fun _ => by contradiction⟩
  · exact ⟨fun _ _ _ => rfl, fun _ _ => by omega, fun _ _ => by omega, fun _ => by contradiction⟩

theorem finishFp_divideFault (op : FpOp) (x y : Word) (t : AugT) (neg : Bool) (r : Int × Nat) (q : Word) :
    (finishFp op x y t neg r q).divideFault = false := by
  unfold finishFp
  split
  · rfl
  split
  · rfl
  split <;> rfl

theorem finishFp_underflowClears (op : FpOp) (x y : Word) (t : AugT) (neg : Bool) (r : Int × Nat) (q : Word) :
    (finishFp op x y t neg r q).UnderflowClears := by
  unfold finishFp
  split
  · exact nofun
  split
  · exact nofun
  split
  · exact fun _ => ⟨rfl, rfl, rfl⟩
  · exact nofun

theorem oddFp_underflowClears (op : FpOp) (x y : Word) (t : AugT) : (oddFp op x y t).UnderflowClears := by
  intro hlow
  have hhigh : Config.fpOddOverflow op x y t = false := by
    simpa using (Bool.and_eq_true_iff.1 hlow).1
  exact ⟨if_pos hlow, if_pos hlow, hhigh⟩

theorem FpAnswer.divideFault {r : FpResult} (h : FpAnswer r) : r.divideFault = false := by
  cases h with
  | zero => rfl
  | odd => rfl
  | finished => exact finishFp_divideFault ..

theorem FpAnswer.underflowClears {r : FpResult} (h : FpAnswer r) : r.UnderflowClears := by
  cases h with
  | zero => exact nofun
  | odd op x y t => exact oddFp_underflowClears op x y t
  | finished op x y t neg r q => exact finishFp_underflowClears op x y t neg r q

/-- Without an exponent overflow an empty residue leaves Q positive zero. -/
theorem FpResult.Formed.q_eq_plus0 {res : FpResult} {neg : Bool} {r : Int × Nat} (h : res.Formed neg r 0)
    (hr : r.1 ≤ 1023) : res.q = plus0 := by
  obtain ⟨hpacked, -, hunder, hzero⟩ := h
  by_cases hc : r.2 = 0
  · obtain ⟨-, hq, -⟩ := hzero hc
    exact hq
  · by_cases hlow : r.1 < -1023
    · rw [hunder hc hlow]
    · rw [hpacked hc (by omega) hr]

/-! ## FAD and FSB -/

/-- The quantities of FAD are aligned by the exponents, whichever operand has the greater (R220). -/
theorem fad_of_exponent_lt {x y : Word} {big small : Unpacked} {d : Nat} (t : AugT)
    (hxy : (big = unpack x ∧ small = unpack y) ∨ (big = unpack y ∧ small = unpack x))
    (hbig : big.odd = false) (hsmall : small.odd = false) (hpos : 0 < d)
    (hd : big.exponent = small.exponent + d) : fad x y t = fadOrdered x y t big small d := by
  rcases hxy with ⟨rfl, rfl⟩ | ⟨rfl, rfl⟩
  · rw [fad, hbig, hsmall, Bool.or_false, if_neg Bool.false_ne_true, if_pos (by omega), hd]
    congr 1
    omega
  · rw [fad, hbig, hsmall, Bool.or_false, if_neg Bool.false_ne_true, if_neg (by omega), hd]
    congr 1
    omega

/-- With equal exponents nothing is shifted (R220). -/
theorem fad_of_exponent_eq {x y : Word} (t : AugT) (hx : (unpack x).odd = false) (hy : (unpack y).odd = false)
    (heq : (unpack x).exponent = (unpack y).exponent) : fad x y t = fadOrdered x y t (unpack x) (unpack y) 0 := by
  rw [fad, hx, hy, Bool.or_false, if_neg Bool.false_ne_true, if_pos (by omega), heq, Int.sub_self]
  rfl

section
variable (x y : Word) (t : AugT) (big small : Unpacked) (d : Nat)

theorem fadAligned_answer : FpAnswer (fadAligned x y t big small d) := by
  unfold fadAligned
  split
  · exact .finished ..
  · exact .finished ..

theorem fadOrdered_answer : FpAnswer (fadOrdered x y t big small d) := by
  unfold fadOrdered
  split
  · exact .finished ..
  split
  · exact .finished ..
  · exact fadAligned_answer ..

theorem fad_answer : FpAnswer (fad x y t) := by
  unfold fad
  simp only
  split
  · exact .odd ..
  split
  · exact fadOrdered_answer ..
  · exact fadOrdered_answer ..

theorem fsb_answer : FpAnswer (fsb x y t) := fad_answer x (~~~y) t

/-- A coefficient of greater exponent that is not zero is all that is left when the exponents differ by more than 36
(R220 item 2). -/
theorem fadOrdered_negligible (hd : 36 < d) (hbig : big.coef ≠ 0) :
    fadOrdered x y t big small d = finishFp .add x y t big.neg (normalize big.exponent big.coef t.t1) 0 := by
  have hq : fadQ x y small d = 0 := if_pos (.inr hd)
  have haligned : fadAligned x y t big small d
      = finishFp .add x y t big.neg (normalize big.exponent big.coef t.t1) 0 := by rw [fadAligned, if_pos hd, hq]
  rw [fadOrdered, if_neg fun h => hbig h.1, haligned, hq, ite_self]

/-- Two coefficients that are not zero are added as they are aligned. -/
theorem fadOrdered_of_coef_ne_zero {x y : Word} {t : AugT} {big small : Unpacked} {d : Nat}
    (hbig : big.coef ≠ 0) (hsmall : small.coef ≠ 0) :
    fadOrdered x y t big small d = fadAligned x y t big small d := by
  rw [fadOrdered, if_neg fun h => hbig h.1, if_neg fun h => hsmall h.1]

/-- Q is positive zero when nothing is shifted, whatever the coefficients (R220 item 2). -/
theorem fadOrdered_negligible_q (hd : 36 < d) {w z : Word} (hw : big = unpack w) (hz : small = unpack z) :
    (fadOrdered x y t big small d).q = plus0 := by
  have hq : fadQ x y small d = 0 := if_pos (.inr hd)
  have hexponent (v : Word) : (normalize (unpack v).exponent (unpack v).coef t.t1).1 ≤ 1023 :=
    Int.le_trans (normalize_exponent_le _ (coef_unpack_lt v) t.t1) (exponent_unpack_le v)
  subst hw hz
  by_cases hbig : (unpack w).coef = 0
  · rw [fadOrdered, fadAligned, if_pos hd, hq]
    split
    · exact (formed_finishFp ..).q_eq_plus0 (hexponent z)
    · rw [ite_self]
      exact (formed_finishFp ..).q_eq_plus0 (hexponent w)
  · rw [fadOrdered_negligible x y t _ _ d hd hbig]
    exact (formed_finishFp ..).q_eq_plus0 (hexponent w)

end

/-! ## The rounding quantity and the residue of FAD -/

section
variable (x y : Word) (t : AugT) (big small : Unpacked) (d : Nat)

theorem fadFree_cases : fadFree x y t = -1 ∨ fadFree x y t = 0 ∨ fadFree x y t = 1 := by
  unfold fadFree
  split
  · split
    · exact .inr (.inr rfl)
    · exact .inl rfl
  · exact .inr (.inl rfl)

/-- A choice among the three quantities, the free one first, is one of them (R220 item 3). -/
theorem find_fadFree_cases (p : Int → Bool) :
    let r := ([fadFree x y t, 0, 1, -1].find? p).getD (fadFree x y t)
    r = -1 ∨ r = 0 ∨ r = 1 := by
  have hfree := fadFree_cases x y t
  cases hfind : [fadFree x y t, 0, 1, -1].find? p with
  | none => exact hfree
  | some r =>
    have hmem := List.mem_of_find?_eq_some hfind
    simp only [List.mem_cons, List.not_mem_nil, or_false] at hmem
    rcases hmem with rfl | rfl | rfl | rfl
    · exact hfree
    · exact .inr (.inl rfl)
    · exact .inr (.inr rfl)
    · exact .inl rfl

/-- The rounding quantity is -1, 0 or +1 (R220 item 3). -/
theorem fadRounding_cases : fadRounding x y t big small d = -1 ∨ fadRounding x y t big small d = 0
    ∨ fadRounding x y t big small d = 1 := by
  unfold fadRounding
  split
  · exact .inr (.inl rfl)
  split
  · exact find_fadFree_cases x y t _
  · exact fadFree_cases x y t

/-- With t0, or equal exponents, FAD does not round (R220 item 4). -/
theorem fadRounding_eq_zero {x y : Word} {t : AugT} {big small : Unpacked} {d : Nat}
    (h : t.t0 = true ∨ d = 0) : fadRounding x y t big small d = 0 :=
  if_pos (by rwa [Bool.or_eq_true, decide_eq_true_iff])

/-- For normalized operands and t = 000 the rounding quantity meets item 5 of R220 if one of the three does. -/
theorem fadClose_fadRounding (hd : d ≠ 0) (hbig : 2 ^ 35 ≤ big.coef) (hsmall : 2 ^ 35 ≤ small.coef)
    (ht : t = AugT.zero) {r : Int} (hr : r ∈ [-1, 0, 1]) (hclose : fadClose big small d r = true) :
    fadClose big small d (fadRounding x y t big small d) = true := by
  have hfind : fadRounding x y t big small d
      = ([fadFree x y t, 0, 1, -1].find? (fun r => fadClose big small d r)).getD (fadFree x y t) := by
    have hrounds : (t.t0 || decide (d = 0)) = false := by
      rw [ht, decide_eq_false hd]
      rfl
    rw [fadRounding, hrounds, if_neg Bool.false_ne_true,
      if_pos (by simp only [hbig, hsmall, ht, decide_true, Bool.and_self])]
  rw [hfind]
  cases hfound : [fadFree x y t, 0, 1, -1].find? (fun r => fadClose big small d r) with
  | some r' => exact List.find?_some (p := fun r => fadClose big small d r) hfound
  | none =>
    have hmem : r ∈ [fadFree x y t, 0, 1, -1] := by
      simp only [List.mem_cons, List.not_mem_nil, or_false] at hr ⊢
      rcases hr with rfl | rfl | rfl
      · exact .inr (.inr (.inr rfl))
      · exact .inr (.inl rfl)
      · exact .inr (.inr (.inl rfl))
    exact absurd hclose (List.find?_eq_none.1 hfound r hmem)

/-- Bits below the top d places of a word, with those above masked off, do not show in the top d (R228 step G). -/
theorem top_of_masked (fill : Word) {d r : Nat} (hd : d ≤ 48) (hr : r < 2 ^ d) :
    (BitVec.ofNat 48 (r * 2 ^ (48 - d)) ||| (fill &&& (BitVec.allOnes 48 >>> d))).toNat / 2 ^ (48 - d) = r := by
  have hplaces : 2 ^ 48 = 2 ^ d * 2 ^ (48 - d) := by rw [← Nat.pow_add, Nat.add_sub_cancel' hd]
  have hfits : r * 2 ^ (48 - d) < 2 ^ 48 := by
    rw [hplaces]
    exact Nat.mul_lt_mul_of_pos_right hr (Nat.two_pow_pos _)
  have hlow : (fill &&& (BitVec.allOnes 48 >>> d)).toNat < 2 ^ (48 - d) := by
    calc (fill &&& (BitVec.allOnes 48 >>> d)).toNat
        ≤ (BitVec.allOnes 48 >>> d).toNat := by rw [BitVec.toNat_and]; exact Nat.and_le_right
      _ = (2 ^ 48 - 1) / 2 ^ d := by
        rw [BitVec.toNat_ushiftRight, BitVec.toNat_allOnes, Nat.shiftRight_eq_div_pow]
      _ < 2 ^ (48 - d) := by
        rw [Nat.div_lt_iff_lt_mul (Nat.two_pow_pos d), Nat.mul_comm, ← hplaces]
        decide
  rw [BitVec.toNat_or, Nat.or_div_two_pow, Nat.div_eq_of_lt hlow, Nat.or_zero, BitVec.toNat_ofNat,
    Nat.mod_eq_of_lt hfits, Nat.mul_div_cancel _ (Nat.two_pow_pos _)]

/-- The top d bits of Q are the residue of the alignment, or its complement for a negative coefficient (R220 item 1). -/
theorem alignResidue_top (hd : d ≤ 48) :
    (alignResidue x y small d).toNat / 2 ^ (48 - d) = small.coef % 2 ^ d
      ∨ (small.neg = true ∧ (alignResidue x y small d).toNat / 2 ^ (48 - d) = 2 ^ d - 1 - small.coef % 2 ^ d) := by
  have hres : small.coef % 2 ^ d < 2 ^ d := Nat.mod_lt _ (Nat.two_pow_pos d)
  unfold alignResidue
  simp only
  split
  · rename_i hneg
    exact .inr ⟨(Bool.and_eq_true_iff.1 hneg).1, top_of_masked _ hd (by omega)⟩
  · exact .inl (top_of_masked _ hd hres)

end

/-! ## The sum of FAD -/

/-- The sign of the sum of FAD: that of a sum that is not zero, else free (R220). -/
def fadSign (x y : Word) (t : AugT) (sum : Int) : Bool :=
  decide (sum < 0) || (decide (sum = 0) && Config.fadZeroNegative x y t)

section
variable (x y : Word) (t : AugT)

theorem fadSign_of_neg {sum : Int} (hneg : sum < 0) : fadSign x y t sum = true := by
  rw [fadSign, decide_eq_true hneg, Bool.true_or]

theorem fadSign_of_pos {sum : Int} (hpos : 0 < sum) : fadSign x y t sum = false := by
  rw [fadSign, decide_eq_false (by omega), decide_eq_false (by omega), Bool.false_and, Bool.or_false]

/-- Aligned by at most 36 places the coefficients are added and rounded, and Q has the residue (R220 items 1 to 4). -/
theorem formed_fadAligned (big small : Unpacked) {d : Nat} (hd : d ≤ 36) {sum : Int}
    (hsum : sum = fadSum big small d (fadRounding x y t big small d)) :
    (fadAligned x y t big small d).Formed (fadSign x y t sum) (normalize big.exponent sum.natAbs t.t1)
      (fadQ x y small d) := by
  subst hsum
  rw [fadAligned, if_neg (by omega)]
  exact formed_finishFp ..

/-- With equal exponents the sum is exact, and Q is empty (R220 item 4). -/
theorem formed_fad_of_exponent_eq (hx : (unpack x).odd = false) (hy : (unpack y).odd = false)
    (hxc : (unpack x).coef ≠ 0) (hyc : (unpack y).coef ≠ 0) (heq : (unpack x).exponent = (unpack y).exponent) :
    (fad x y t).Formed (fadSign x y t ((unpack x).signed + (unpack y).signed))
      (normalize (unpack x).exponent ((unpack x).signed + (unpack y).signed).natAbs t.t1) 0 := by
  have hsum : (unpack x).signed + (unpack y).signed
      = fadSum (unpack x) (unpack y) 0 (fadRounding x y t (unpack x) (unpack y) 0) := by
    rw [fadRounding_eq_zero (.inr rfl), fadSum, Int.pow_zero, Int.tdiv_one, Int.add_zero]
  rw [fad_of_exponent_eq t hx hy heq, fadOrdered_of_coef_ne_zero hxc hyc]
  exact formed_fadAligned x y t _ _ (by omega) hsum

end

/-! ## FMU and FDV -/

section
variable (x y : Word) (t : AugT)

/-- A product with a zero coefficient is a zero by the signs of the operands (R224 item 3). -/
theorem fmu_of_zero (h : (unpack x).coef = 0 ∨ (unpack y).coef = 0) :
    fmu x y t = zeroFp ((unpack x).neg ^^ (unpack y).neg) := if_pos h

theorem fmu_answer : FpAnswer (fmu x y t) := by
  unfold fmu
  simp only
  split
  · exact .zero _
  split
  · exact .odd ..
  · exact .finished ..

/-- A zero dividend gives a zero by the signs of the operands, whatever the divisor (R226 items 2 and 4). -/
theorem fdv_of_zero (h : (unpack x).coef = 0) : fdv x y t = zeroFp ((unpack x).neg ^^ (unpack y).neg) := if_pos h

/-- The divide fault leaves A and Q free (R216, U9). -/
theorem fdv_of_fault (hx : (unpack x).coef ≠ 0)
    (hy : (unpack y).coef = 0 ∨ 2 * (unpack y).coef ≤ (unpack x).coef) : fdv x y t = {
      a := Config.fpDivFaultA x y t, q := Config.fpDivFaultQ x y t, divideFault := true, overflow := false
      underflow := false } :=
  (if_neg hx).trans (if_pos hy)

/-- A division without a divide fault (R226). -/
theorem fdv_answer
    (h : ¬ ((unpack x).coef ≠ 0 ∧ ((unpack y).coef = 0 ∨ 2 * (unpack y).coef ≤ (unpack x).coef))) :
    FpAnswer (fdv x y t) := by
  unfold fdv
  simp only
  split
  · exact .zero _
  split
  · rename_i hx hy
    exact absurd ⟨hx, hy⟩ h
  split
  · exact .odd ..
  · exact .finished ..

/-- A division has a divide fault exactly when the dividend is not zero and the divisor is zero or too small (R216). -/
theorem fdv_divideFault_iff : (fdv x y t).divideFault = true ↔
    (unpack x).coef ≠ 0 ∧ ((unpack y).coef = 0 ∨ 2 * (unpack y).coef ≤ (unpack x).coef) := by
  refine ⟨fun hfault => ?_, fun ⟨hx, hy⟩ => by rw [fdv_of_fault x y t hx hy]⟩
  refine Decidable.byContradiction fun hno => ?_
  rw [(fdv_answer x y t hno).divideFault] at hfault
  cases hfault

theorem fdv_underflowClears : (fdv x y t).UnderflowClears := by
  by_cases hfault : (unpack x).coef ≠ 0 ∧ ((unpack y).coef = 0 ∨ 2 * (unpack y).coef ≤ (unpack x).coef)
  · obtain ⟨hx, hy⟩ := hfault
    rw [fdv_of_fault x y t hx hy]
    exact nofun
  · exact (fdv_answer x y t hfault).underflowClears

end

/-- Equal signs give a positive zero, others a negative one (R224 item 3, R226 items 2 and 4). -/
theorem zeroFp_xor (neg neg' : Bool) : zeroFp (neg ^^ neg') = {
    a := if neg = neg' then plus0 else minus0, q := 0, divideFault := false, overflow := false
    underflow := false } := by
  rw [zeroFp, packFp_zero]
  cases neg <;> cases neg' <;> rfl

/-- Adding one on a condition that t0 switches off (R217). -/
theorem add_roundingUnit (n : Nat) (t0 : Bool) (p : Prop) [Decidable p] :
    n + (if !t0 && decide p then 1 else 0) = if t0 = false ∧ p then n + 1 else n := by
  simp only [Bool.and_eq_true, Bool.not_eq_true', decide_eq_true_eq]
  by_cases h : t0 = false ∧ p
  · rw [if_pos h, if_pos h]
  · rw [if_neg h, if_neg h, Nat.add_zero]

section
variable {x y : Word} (t : AugT) (hx : (unpack x).odd = false) (hy : (unpack y).odd = false)
  (hxc : (unpack x).coef ≠ 0)
include hx hy hxc

/-- FMU gives the upper half of the product of the coefficients, rounded, and the lower half in Q (R224). -/
theorem formed_fmu (hyc : (unpack y).coef ≠ 0) {p : Nat} (hp : p = (unpack x).coef * (unpack y).coef) :
    (fmu x y t).Formed ((unpack x).neg ^^ (unpack y).neg)
      (normalize ((unpack x).exponent + (unpack y).exponent)
        (if t.t0 = false ∧ 2 ^ 35 ≤ p % 2 ^ 36 then p / 2 ^ 36 + 1 else p / 2 ^ 36) t.t1)
      (BitVec.ofNat 48 (p % 2 ^ 36 * 2 ^ 12)) := by
  subst hp
  rw [fmu, if_neg (not_or.2 ⟨hxc, hyc⟩), hx, hy, Bool.or_false, if_neg Bool.false_ne_true, ← add_roundingUnit]
  exact formed_finishFp ..

/-- FDV gives the quotient of the coefficients to its place n, rounded, and the remainder in Q (R226). -/
theorem formed_fdv (hsize : (unpack x).coef < 2 * (unpack y).coef) :
    ∃ n : Nat, (n = 35 ∨ (n = 36 ∧ (unpack x).coef < (unpack y).coef))
      ∧ (fdv x y t).Formed ((unpack x).neg ^^ (unpack y).neg)
        (normalize ((unpack x).exponent - (unpack y).exponent + (36 - n))
          (if t.t0 = false ∧ (unpack y).coef ≤ 2 * ((unpack x).coef * 2 ^ n % (unpack y).coef) then
            (unpack x).coef * 2 ^ n / (unpack y).coef + 1
           else (unpack x).coef * 2 ^ n / (unpack y).coef) t.t1)
        (BitVec.ofNat 48 ((unpack x).coef * 2 ^ n % (unpack y).coef)) := by
  have hplaces : fdvPlaces x y (unpack x) (unpack y) = 35
      ∨ (fdvPlaces x y (unpack x) (unpack y) = 36 ∧ (unpack x).coef < (unpack y).coef) := by
    unfold fdvPlaces
    split
    · rename_i hfull
      exact .inr ⟨rfl, of_decide_eq_true (Bool.and_eq_true_iff.1 hfull).1⟩
    · exact .inl rfl
  have hshift : ((36 - fdvPlaces x y (unpack x) (unpack y) : Nat) : Int)
      = 36 - (fdvPlaces x y (unpack x) (unpack y) : Int) := by omega
  refine ⟨fdvPlaces x y (unpack x) (unpack y), hplaces, ?_⟩
  rw [fdv, if_neg hxc, if_neg (by omega), hx, hy, Bool.or_false, if_neg Bool.false_ne_true, ← add_roundingUnit,
    ← hshift]
  exact formed_finishFp ..

end

/-! ## The four instructions -/

section
variable {s : State} {b : Desig} {m : Addr}

/-- With the option a floating point instruction completes with the result of its arithmetic (R218, R219). -/
theorem State.floating_canRead (hs : s.CanRead b m) (hopt : s.config.floatingOption = true) (low : BitVec 2)
    (f : Word → Word → AugT → FpResult) : s.floating low b m f
      = .next (s.applyFp (f s.a (s.augmented (s.operand b m)) s.designators)).next24 :=
  (if_pos hopt).trans (State.withOperand_canRead hs _)

/-- Without it the Category II interrupt comes first, whatever the operand (R218, R440, D43). -/
theorem State.floating_missing (hopt : s.config.floatingOption = false) (hquiet : s.Undisturbed) (low : BitVec 2)
    (f : Word → Word → AugT → FpResult) : s.floating low b m f
      = .next (({ s with mode2 := true, exit2 := s.resumeHalf } : State).entered (0o00030 + low.setWidth 15) s.p) := by
  obtain ⟨hslots, hparity⟩ := hquiet
  rw [State.floating, hopt, if_neg Bool.false_ne_true, State.cat2Entry,
    State.trapJump_undisturbed _ _ _ (by exact hslots) (by exact hparity)]

end

/-- Settles O26: the four instructions are one skeleton around their arithmetic. -/
theorem floatingPoint : Obligations.FloatingPoint := by
  constructor
  · intro s b m i r hs hopt hi
    simp only [List.mem_cons, List.not_mem_nil, or_false, Prod.mk.injEq] at hi
    rcases hi with ⟨rfl, rfl⟩ | ⟨rfl, rfl⟩ | ⟨rfl, rfl⟩ | ⟨rfl, rfl⟩
    · exact State.floating_canRead hs hopt 0 fad
    · exact State.floating_canRead hs hopt 1 fsb
    · exact State.floating_canRead hs hopt 2 fmu
    · exact State.floating_canRead hs hopt 3 fdv
  · intro s b m i f hopt hquiet hi
    simp only [List.mem_cons, List.not_mem_nil, or_false, Prod.mk.injEq] at hi
    rcases hi with ⟨rfl, rfl⟩ | ⟨rfl, rfl⟩ | ⟨rfl, rfl⟩ | ⟨rfl, rfl⟩
    · exact State.floating_missing hopt hquiet 0 fad
    · exact State.floating_missing hopt hquiet 1 fsb
    · exact State.floating_missing hopt hquiet 2 fmu
    · exact State.floating_missing hopt hquiet 3 fdv

/-- Settles O27: every answer that is not a divide fault is a zero, an open or a finished one, and none of these has a
divide fault or keeps anything at an underflow. -/
theorem floatingFaults : Obligations.FloatingFaults := by
  intro x y t r hr
  refine ⟨?_, (fad_answer x y t).divideFault, (fsb_answer x y t).divideFault, (fmu_answer x y t).divideFault,
    fdv_divideFault_iff x y t⟩
  simp only [List.mem_cons, List.not_mem_nil, or_false] at hr
  rcases hr with rfl | rfl | rfl | rfl
  · exact (fad_answer x y t).underflowClears
  · exact (fsb_answer x y t).underflowClears
  · exact (fmu_answer x y t).underflowClears
  · exact fdv_underflowClears x y t

/-- Settles O28: the operand of greater exponent is normalized and packed; normalized already, it is packed as it was
unpacked. -/
theorem floatingNegligible : Obligations.FloatingNegligible := by
  intro x y w z t hwz hw hz hfar
  have hxy : (unpack w = unpack x ∧ unpack z = unpack y) ∨ (unpack w = unpack y ∧ unpack z = unpack x) := by
    rcases hwz with ⟨rfl, rfl⟩ | ⟨rfl, rfl⟩
    · exact .inl ⟨rfl, rfl⟩
    · exact .inr ⟨rfl, rfl⟩
  obtain ⟨d, hd⟩ := Int.le.dest (Int.le_of_lt (show (unpack z).exponent < (unpack w).exponent by omega))
  have hfad : fad x y t = fadOrdered x y t (unpack w) (unpack z) d :=
    fad_of_exponent_lt t hxy hw hz (by omega) hd.symm
  have hanswer : (unpack w).coef ≠ 0 →
      (fad x y t).Formed (unpack w).neg (normalize (unpack w).exponent (unpack w).coef t.t1) 0 := fun hcoef => by
    rw [hfad, fadOrdered_negligible x y t _ _ d (by omega) hcoef]
    exact formed_finishFp ..
  refine ⟨?_, hanswer, fun hset => ?_⟩
  · rw [hfad]
    exact fadOrdered_negligible_q x y t _ _ d (by omega) rfl rfl
  · have hcoef : (unpack w).coef ≠ 0 := by omega
    obtain ⟨hpacked, -⟩ := hanswer hcoef
    rw [normalize_done _ (coef_unpack_lt w) (.inr hset), packFp_unpack hw hcoef] at hpacked
    exact hpacked hcoef (unpack w).neg_le_exponent (exponent_unpack_le w)

/-- Settles O60: the rules of normalization, of the pack and of the three algorithms, each proved above. -/
theorem floatingResults : Obligations.FloatingResults := by
  refine ⟨fun e c hc => ?normalized, fun neg e c hpos hlt hlow hhigh => ?packed, ?values, ?aligned⟩
  case normalized =>
    have hzero := normalize_done (c := 0) e (by decide) (.inl rfl)
    exact ⟨⟨hzero false, hzero true⟩, rightNormalize_of_lt e,
      fun hle => ⟨normalize_of_le e hle hc true, normalize_of_le e hle hc false⟩, normalize_left e⟩
  case packed =>
    rw [unpack_packFp hhigh neg hpos hlt]
    exact ⟨rfl, exponent_biasedExponent hlow neg c, rfl, odd_biasedExponent hlow neg c⟩
  case values =>
    rintro x y t u v rfl rfl
    refine ⟨fun h => (fmu_of_zero x y t h).trans (zeroFp_xor _ _),
      fun h => (fdv_of_zero x y t h).trans (zeroFp_xor _ _), rfl, fun hx hy hxc hyc => ⟨?_, ?_, fun heq => ?_⟩⟩
    · exact formed_fmu t hx hy hxc hyc rfl
    · exact formed_fdv t hx hy hxc
    · exact ⟨_, fadSign_of_neg x y t, fadSign_of_pos x y t, formed_fad_of_exponent_eq x y t hx hy hxc hyc heq⟩
  case aligned =>
    intro x y t big small d hxy hbig hsmall hbigc hsmallc hpos hd hexp
    have hclosest : 2 ^ 35 ≤ big.coef → 2 ^ 35 ≤ small.coef → t = AugT.zero →
        (∃ r ∈ [-1, 0, 1], fadClose big small d r = true) →
        fadClose big small d (fadRounding x y t big small d) = true := by
      rintro hb hs ht ⟨r, hr, hclose⟩
      exact fadClose_fadRounding x y t big small d (by omega) hb hs ht hr hclose
    have hresidue : fadQ x y small d = alignResidue x y small d := if_neg (by omega)
    have hformed := formed_fadAligned x y t big small hd rfl
    rw [hresidue, ← fadOrdered_of_coef_ne_zero hbigc hsmallc, ← fad_of_exponent_lt t hxy hbig hsmall hpos hexp]
      at hformed
    exact ⟨_, _, _, _, fadRounding_cases .., fun ht => fadRounding_eq_zero (.inl ht), rfl, hclosest,
      fadSign_of_neg x y t, fadSign_of_pos x y t, alignResidue_top x y small d (by omega), hformed⟩

end Sys2Proof.Machine

/-! Logical instructions, shifts and scales (44_logical_shift R241 to R262): one read, one modified count, and the
scaling loop as a number of places. -/

namespace Sys2Proof.Machine

/-! ## The logical instructions -/

/-- Settles O29: each reads its operand in the state as it stands and puts its function of A, Q and the operand into
A. -/
theorem logicalInstructions : Obligations.LogicalInstructions := by
  intro s b m hs
  have hread := State.withOperand_canRead hs
  exact ⟨hread _, hread _, hread _, hread _, hread _⟩

/-! ## The six shifts -/

section
variable {s : State} {b : Desig} {k : Addr} {limit : Nat}

/-- A count up to the limit is shifted by (R250, R252). -/
theorem State.shift_of_le (hb : b ≠ 7) (hk : (s.modified b k).toNat ≤ limit) (f : Nat → State) :
    s.shift b k limit f = .next (f (s.modified b k).toNat).next24 := by
  rw [State.shift, State.effective_direct _ _ _ _ hb, if_neg (Nat.not_lt.2 hk)]

/-- A count beyond the limit leaves the shift fault, whatever the shift (R250, R251). -/
theorem State.shift_of_lt (hb : b ≠ 7) (hk : limit < (s.modified b k).toNat) (f : Nat → State) :
    s.shift b k limit f = .next s.shiftFault.next24 := by
  rw [State.shift, State.effective_direct _ _ _ _ hb, if_pos hk]

end

section
variable (b : Desig) (k : Addr) (s : State)

theorem exec_ars : exec (.ars b k) s = s.shift b k 48 fun n => { s with a := sar s.a n } := rfl

theorem exec_qrs : exec (.qrs b k) s = s.shift b k 48 fun n => { s with q := sar s.q n } := rfl

theorem exec_lrs : exec (.lrs b k) s = s.shift b k 96 fun n => s.setAQ (sar s.aq n) := rfl

theorem exec_als : exec (.als b k) s = s.shift b k 48 fun n => { s with a := rotl s.a n } := rfl

theorem exec_qls : exec (.qls b k) s = s.shift b k 48 fun n => { s with q := rotl s.q n } := rfl

theorem exec_lls : exec (.lls b k) s = s.shift b k 96 fun n => s.setAQ (rotl s.aq n) := rfl

end

/-- Settles O30: the six shifts are one skeleton around their shift, with the limit 48 or 96. -/
theorem shifts : Obligations.Shifts := by
  refine ⟨fun s b k hb => ⟨fun hk => ?_, fun hk => ?_⟩, fun s b k hb => ⟨fun hk => ?_, fun hk => ?_⟩⟩
  · have hshift := State.shift_of_le hb hk
    exact ⟨(exec_ars ..).trans (hshift _), (exec_qrs ..).trans (hshift _), (exec_als ..).trans (hshift _),
      (exec_qls ..).trans (hshift _)⟩
  · have hshift := State.shift_of_le hb hk
    exact ⟨(exec_lrs ..).trans (hshift _), (exec_lls ..).trans (hshift _)⟩
  · have hfault := State.shift_of_lt hb hk
    exact ⟨(exec_ars ..).trans (hfault _), (exec_qrs ..).trans (hfault _), (exec_als ..).trans (hfault _),
      (exec_qls ..).trans (hfault _)⟩
  · have hfault := State.shift_of_lt hb hk
    exact ⟨(exec_lrs ..).trans (hfault _), (exec_lls ..).trans (hfault _)⟩

/-! ## The scaling loop -/

section
variable {w : Nat} (x : BitVec w)

theorem rotl_zero : rotl x 0 = x := by
  refine BitVec.eq_of_getMsbD_eq fun i hi => ?_
  rw [rotl, BitVec.getMsbD_rotateLeft, Nat.zero_add, Nat.mod_eq_of_lt hi, decide_eq_true hi, Bool.true_and]

/-- Rotations add up, past the width of the register too. -/
theorem rotl_rotl (m n : Nat) : rotl (rotl x m) n = rotl x (n + m) := by
  refine BitVec.eq_of_getMsbD_eq fun i hi => ?_
  have hplace : (m + (n + i) % w) % w = (n + m + i) % w := by
    rw [Nat.add_mod_mod, ← Nat.add_assoc, Nat.add_comm m n]
  have hin : (n + i) % w < w := Nat.mod_lt _ (Nat.lt_of_le_of_lt i.zero_le hi)
  simp only [rotl, BitVec.getMsbD_rotateLeft, hplace, decide_eq_true hi, decide_eq_true hin, Bool.true_and]

end

/-- One place less is left of a count that is not used up (R260). -/
theorem toNat_bits_pred {k : Addr} (hk : bits k 0 7 ≠ 0) :
    (bits (k - 1) 0 7).toNat + 1 = (bits k 0 7).toNat := by
  have hpos : (bits k 0 7).toNat ≠ 0 := fun hzero => hk (BitVec.eq_of_toNat_eq hzero)
  rw [toNat_bits] at hpos
  rw [toNat_bits, toNat_bits]
  bv_omega

/-- A scale of x with the count k has the answer r after n places: it rotates by n and takes n from the count, stops
because the count is used up or the two top bits differ, and would not have stopped before (R260). -/
def ScaledBy {w : Nat} (x : BitVec w) (k : Addr) (r : BitVec w × Addr) (n : Nat) : Prop :=
  n ≤ (bits k 0 7).toNat
    ∧ r = (rotl x n, k - BitVec.ofNat 15 n)
    ∧ (n = (bits k 0 7).toNat ∨ (rotl x n).getLsbD (w - 1) ≠ (rotl x n).getLsbD (w - 2))
    ∧ ∀ j, j < n → (rotl x j).getLsbD (w - 1) = (rotl x j).getLsbD (w - 2)

section
variable {w : Nat} {x : BitVec w} {k : Addr}

/-- A register that is scaled, or a count that is used up, stops the loop at once. -/
theorem scaledBy_zero (hstop : bits k 0 7 = 0 ∨ x.getLsbD (w - 1) ≠ x.getLsbD (w - 2)) :
    ScaledBy x k (x, k) 0 := by
  refine ⟨Nat.zero_le _, ?_, ?_, fun j hj => absurd hj j.not_lt_zero⟩
  · rw [rotl_zero, BitVec.sub_zero]
  · rw [rotl_zero]
    exact hstop.imp_left fun hused => by rw [hused]; rfl

/-- A turn of the loop adds one place to those that the rest of it makes. -/
theorem ScaledBy.succ {r : BitVec w × Addr} {n : Nat} (htop : x.getLsbD (w - 1) = x.getLsbD (w - 2))
    (hk : bits k 0 7 ≠ 0) (hrest : ScaledBy (rotl x 1) (k - 1) r n) : ScaledBy x k r (n + 1) := by
  obtain ⟨hle, hr, hstop, hbefore⟩ := hrest
  have hcount := toNat_bits_pred hk
  simp only [rotl_rotl] at hr hstop hbefore
  refine ⟨by omega, ?_, ?_, fun j hj => ?_⟩
  · have hleft : k - 1 - BitVec.ofNat 15 n = k - BitVec.ofNat 15 (n + 1) := by bv_omega
    rw [hr, hleft]
  · exact hstop.imp_left fun hused => by omega
  · cases j with
    | zero => rwa [rotl_zero]
    | succ j => exact hbefore j (Nat.lt_of_succ_lt_succ hj)

/-- With fuel for the whole count the loop makes the least number of places that scales x, or all that the count
allows (R260). -/
theorem exists_scaledBy_scale (fuel : Nat) (hfuel : (bits k 0 7).toNat ≤ fuel) :
    ∃ n, ScaledBy x k (scale fuel x k) n := by
  induction fuel generalizing x k with
  | zero => exact ⟨0, scaledBy_zero (.inl (BitVec.eq_of_toNat_eq (Nat.le_zero.1 hfuel)))⟩
  | succ fuel ih =>
    unfold scale
    split
    · rename_i hturn
      obtain ⟨htop, hk⟩ := hturn
      have hcount := toNat_bits_pred hk
      obtain ⟨n, hrest⟩ := ih (x := rotl x 1) (k := k - 1) (by omega)
      exact ⟨n + 1, hrest.succ htop hk⟩
    · rename_i hstop
      exact ⟨0, scaledBy_zero ((Decidable.not_and_iff_or_not.1 hstop).symm.imp_left Decidable.not_not.1)⟩

theorem scaled_of_zero (hx : x = 0 ∨ x = BitVec.allOnes w) : scaled x k = (x, k) := if_pos hx

/-- Seven bits of count ask for no more than the 127 turns that the loop is given. -/
theorem exists_scaledBy_scaled (hzero : x ≠ 0) (hones : x ≠ BitVec.allOnes w) :
    ∃ n, ScaledBy x k (scaled x k) n := by
  rw [scaled, if_neg (not_or.2 ⟨hzero, hones⟩)]
  exact exists_scaledBy_scale 127 (Nat.le_of_lt_succ (bits k 0 7).isLt)

end

/-- Settles O31: the two instructions write what `scaled` answers, for which a zero is the end and any other register
goes through the loop. -/
theorem scales : Obligations.Scales := by
  refine ⟨fun s b k hb => ?_, fun x k hplus hminus => exists_scaledBy_scaled hplus hminus,
    fun x k hzero hones => exists_scaledBy_scaled hzero hones⟩
  have hdirect := fun next => s.resolve_direct b k next hb
  exact ⟨hdirect _, hdirect _, scaled_of_zero (.inl rfl), scaled_of_zero (.inr rfl), scaled_of_zero (.inl rfl),
    scaled_of_zero (.inr rfl)⟩

end Sys2Proof.Machine

/-! Storage searches (45_replace_test_search R280 to R285): the order of the words, one iteration, and a whole search as
an iteration repeated from the last word down. -/

namespace Sys2Proof.Machine

/-! ## The order of the words -/

/-- With its sign inverted a pattern is a place in the order of R283: the negative patterns come first, and the last of
them is negative zero. -/
theorem toNat_xor_intMin_cases (x : Word) :
    (x.toNat < 2 ^ 47 ∧ (x ^^^ BitVec.intMin 48).toNat = x.toNat + 2 ^ 47)
      ∨ (2 ^ 47 ≤ x.toNat ∧ (x ^^^ BitVec.intMin 48).toNat = x.toNat - 2 ^ 47) := by
  have hlt := x.isLt
  have hxor : (x ^^^ BitVec.intMin 48).toNat = x.toNat ^^^ 2 ^ 47 := BitVec.toNat_xor x _
  have hlow : (x.toNat ^^^ 2 ^ 47) % 2 ^ 47 = x.toNat % 2 ^ 47 := by
    rw [Nat.xor_mod_two_pow, Nat.mod_self, Nat.xor_zero]
  have hsign : (x.toNat ^^^ 2 ^ 47) / 2 ^ 47 = x.toNat / 2 ^ 47 ^^^ 1 := Nat.xor_div_two_pow
  rcases Nat.lt_or_ge x.toNat (2 ^ 47) with hpos | hneg
  · rw [show x.toNat / 2 ^ 47 = 0 by omega, Nat.zero_xor] at hsign
    omega
  · rw [show x.toNat / 2 ^ 47 = 1 by omega, Nat.xor_self] at hsign
    omega

theorem gt48_iff (x a : Word) :
    gt48 x a = true ↔ onesValue a < onesValue x ∨ (x = plus0 ∧ a = minus0) := by
  have hx := onesValue_cases x
  have ha := onesValue_cases a
  have hplace := toNat_xor_intMin_cases x
  have hplace' := toNat_xor_intMin_cases a
  have hplus : x = plus0 ↔ x.toNat = 0 := BitVec.toNat_inj.symm
  have halt := a.isLt
  rw [gt48, decide_eq_true_iff, hplus, eq_allOnes_iff_toNat]
  omega

/-! ## One iteration -/

/-- What the instruction i does in every state is a search through b from m; `test` makes the comparison, from A, Q and
the word. -/
def Searches (i : Instr) (b : Desig) (m : Addr) (test : Word → Word → Word → Bool) : Prop :=
  ∀ s : State, exec i s = s.search b m fun u x => test u.a u.q x

/-- The four searches, each with the comparison that it makes (R282 to R285). -/
theorem exists_searches {s : State} {b : Desig} {m : Addr} {i : Instr} {hit : Word → Bool}
    (hi : (i, hit) ∈ [(Instr.eqs b m, fun x => decide (x = s.a)), (.ths b m, fun x => gt48 x s.a),
      (.meq b m, fun x => decide (s.q &&& x = s.a)), (.mth b m, fun x => gt48 (s.q &&& x) s.a)]) :
    ∃ test, Searches i b m test ∧ test s.a s.q = hit := by
  simp only [List.mem_cons, List.not_mem_nil, or_false, Prod.mk.injEq] at hi
  rcases hi with ⟨rfl, rfl⟩ | ⟨rfl, rfl⟩ | ⟨rfl, rfl⟩ | ⟨rfl, rfl⟩
  · exact ⟨fun a _ x => decide (x = a), fun _ => rfl, rfl⟩
  · exact ⟨fun a _ x => gt48 x a, fun _ => rfl, rfl⟩
  · exact ⟨fun a q x => decide (q &&& x = a), fun _ => rfl, rfl⟩
  · exact ⟨fun a q x => gt48 (q &&& x) a, fun _ => rfl, rfl⟩

section
variable {s : State} {b : Desig}

theorem State.b_setB_same (h0 : b ≠ 0) (h7 : b ≠ 7) (v : Addr) : (s.setB b v).b b = v :=
  s.index.get_set_same v h0 h7

theorem IndexFile.set_set (f : IndexFile) (b : Desig) (v w : Addr) : (f.set b v).set b w = f.set b w := by
  rcases Desig.eq_cases b with rfl | rfl | rfl | rfl | rfl | rfl | rfl | rfl
  all_goals rfl

theorem State.setB_setB (v w : Addr) : (s.setB b v).setB b w = s.setB b w :=
  congrArg (fun f => { s with index := f }) (s.index.set_set b v w)

/-- How an iteration ends that has left v in the index register (R281). -/
theorem State.searchEnd_setB (h0 : b ≠ 0) (h7 : b ≠ 7) (v : Addr) (found : Bool) :
    (s.setB b v).searchEnd b found =
      if found then (s.setB b v).skipIf true
      else if v = 0 then (s.setB b v).next24 else (s.setB b v).again .search := by
  rw [State.searchEnd, State.b_setB_same h0 h7]

/-- The end of an iteration forgets whether another one came before. -/
theorem State.searchEnd_again (g : Progress) (found : Bool) : (s.again g).searchEnd b found = s.searchEnd b found :=
  rfl

end

section
variable {s : State} {b : Desig} {m : Addr} {i : Instr} {test : Word → Word → Word → Bool}

/-- With b = 0 the word at m is examined and nothing is counted (R281). -/
theorem Searches.exec_unindexed (hi : Searches i b m test) (hq : s.Quiet) (h7 : b ≠ 7) (h0 : b = 0)
    (hword : s.hasWord m = true) :
    exec i s = .next (s.skipIf (test s.a s.q (Memory.word s.memory m))) := by
  rw [hi s, State.search, State.resolve_direct _ _ _ _ h7, if_pos h0, State.readOperand_quiet _ _ _ hq hword]

/-- An index register that is zero leaves no word to examine (R281). -/
theorem Searches.exec_exhausted (hi : Searches i b m test) (h7 : b ≠ 7) (h0 : b ≠ 0) (hnone : s.b b = 0) :
    exec i s = .next s.next24 := by
  rw [hi s, State.search, State.resolve_direct _ _ _ _ h7, if_neg h0, if_pos hnone]

/-- Otherwise the register is counted down, and the word at m plus the register is examined (R281). -/
theorem Searches.exec_counted (hi : Searches i b m test) (hq : s.Quiet) (h7 : b ≠ 7) (h0 : b ≠ 0) (hsome : s.b b ≠ 0)
    (hword : s.hasWord (add15 m (s.b b - 1)) = true) :
    exec i s = .next ((s.setB b (s.b b - 1)).searchEnd b
      (test s.a s.q (Memory.word s.memory (add15 m (s.b b - 1))))) := by
  rw [hi s, State.search, State.resolve_direct _ _ _ _ h7, if_neg h0, if_neg hsome]
  exact State.readOperand_quiet _ _ _ hq hword

/-- A word without a hit that is not the last one to examine lets the search go on (R281). -/
theorem Searches.exec_missed (hi : Searches i b m test) (hq : s.Quiet) (h7 : b ≠ 7) (h0 : b ≠ 0) (hsome : s.b b ≠ 0)
    (hword : s.hasWord (add15 m (s.b b - 1)) = true) (hmore : s.b b - 1 ≠ 0)
    (hmiss : test s.a s.q (Memory.word s.memory (add15 m (s.b b - 1))) = false) :
    exec i s = .next ((s.setB b (s.b b - 1)).again .search) := by
  rw [hi.exec_counted hq h7 h0 hsome hword, hmiss, State.searchEnd_setB h0 h7, if_neg Bool.false_ne_true,
    if_neg hmore]

end

/-- Settles O33: the three cases of an iteration, and the order that THS and MTH go by. -/
theorem searchIteration : Obligations.SearchIteration := by
  refine ⟨fun s b m i hit hq h7 hi => ?_, gt48_iff⟩
  obtain ⟨test, hsearch, rfl⟩ := exists_searches hi
  refine ⟨hsearch.exec_unindexed hq h7, hsearch.exec_exhausted h7, fun h0 hsome hword => ?_⟩
  rw [hsearch.exec_counted hq h7 h0 hsome hword, State.searchEnd_setB h0 h7]
  have hlast : s.b b - 1 = 0 ↔ s.b b = 1 := BitVec.sub_eq_iff_eq_add
  by_cases hone : s.b b = 1
  · rw [if_pos hone, if_pos (hlast.2 hone), hone]
    rfl
  · rw [if_neg hone, if_neg (mt hlast.1 hone)]
    rfl

/-! ## A whole search -/

theorem repeatExec_succ {i : Instr} {s t : State} (h : exec i s = .next t) (n : Nat) :
    repeatExec i (n + 1) s = repeatExec i n t := by
  rw [repeatExec, h]

/-- A register that counts n + 1 words can be counted down, to n words. -/
theorem sub_one_of_toNat_eq {v : Addr} {n : Nat} (hv : v.toNat = n + 1) :
    v ≠ 0 ∧ (v - 1).toNat = n ∧ v - 1 < v := by
  have hle : (1 : Addr) ≤ v := BitVec.le_def.2 (hv.symm ▸ Nat.le_add_left 1 n)
  have hpred : (v - 1).toNat = n := (BitVec.toNat_sub_of_le hle).trans (congrArg (· - 1) hv)
  refine ⟨?_, hpred, BitVec.lt_def.2 (by omega)⟩
  rintro rfl
  exact absurd hv.symm n.succ_ne_zero

section
variable {s : State} {b : Desig} {m : Addr} {i : Instr} {test : Word → Word → Word → Bool} {j : Addr}

/-- When no word above j is a hit, the search comes down to the word at j, and ends or goes on there as an iteration
does (R281). The induction is on the number of words above j. -/
theorem Searches.repeatExec_down (hi : Searches i b m test) (h7 : b ≠ 7) (h0 : b ≠ 0) {n : Nat}
    (hq : s.Quiet) (hn : (s.b b).toNat = j.toNat + n + 1) (hwords : ∀ k, k < s.b b → s.hasWord (add15 m k) = true)
    (hmiss : ∀ k, j < k → k < s.b b → test s.a s.q (Memory.word s.memory (add15 m k)) = false) :
    repeatExec i (n + 1) s =
      .next ((s.setB b j).searchEnd b (test s.a s.q (Memory.word s.memory (add15 m j)))) := by
  induction n generalizing s with
  | zero =>
    obtain ⟨hsome, hpred, hbelow⟩ := sub_one_of_toNat_eq hn
    have hj : s.b b - 1 = j := BitVec.eq_of_toNat_eq hpred
    have hrun := hi.exec_counted hq h7 h0 hsome (hwords _ hbelow)
    rw [hj] at hrun
    exact repeatExec_succ hrun 0
  | succ n ih =>
    obtain ⟨hsome, hpred, hbelow⟩ := sub_one_of_toNat_eq hn
    obtain ⟨hmore, -, -⟩ := sub_one_of_toNat_eq hpred
    have habove : j < s.b b - 1 := BitVec.lt_def.2 (by omega)
    have hrun := hi.exec_missed hq h7 h0 hsome (hwords _ hbelow) hmore (hmiss _ habove hbelow)
    have hcount : ((s.setB b (s.b b - 1)).again .search).b b = s.b b - 1 := State.b_setB_same h0 h7 _
    have hrest := ih (s := (s.setB b (s.b b - 1)).again .search) hq (by rw [hcount]; exact hpred)
      (fun k hk => hwords k (BitVec.lt_trans (hcount ▸ hk) hbelow))
      (fun k hjk hk => hmiss k hjk (BitVec.lt_trans (hcount ▸ hk) hbelow))
    calc repeatExec i (n + 2) s
        = repeatExec i (n + 1) ((s.setB b (s.b b - 1)).again .search) := repeatExec_succ hrun _
      _ = .next ((((s.setB b (s.b b - 1)).setB b j).again .search).searchEnd b _) := hrest
      _ = _ := by rw [State.searchEnd_again, State.setB_setB]; rfl

/-- It takes as many iterations as there are words from j up (R281). -/
theorem Searches.repeatExec_sub (hi : Searches i b m test) (h7 : b ≠ 7) (h0 : b ≠ 0) (hq : s.Quiet) (hj : j < s.b b)
    (hwords : ∀ k, k < s.b b → s.hasWord (add15 m k) = true)
    (hmiss : ∀ k, j < k → k < s.b b → test s.a s.q (Memory.word s.memory (add15 m k)) = false) :
    repeatExec i ((s.b b).toNat - j.toNat) s =
      .next ((s.setB b j).searchEnd b (test s.a s.q (Memory.word s.memory (add15 m j)))) := by
  obtain ⟨n, hn⟩ := Nat.exists_eq_add_of_lt (BitVec.lt_def.1 hj)
  rw [hn, show j.toNat + n + 1 - j.toNat = n + 1 by omega]
  exact hi.repeatExec_down h7 h0 hq hn hwords hmiss

end

/-- Settles O34: the search comes down to the highest hit, or to the last word to examine, which is no hit either. -/
theorem searchFindsLastMatch : Obligations.SearchFindsLastMatch := by
  intro s b m i hit hq h7 h0 hi hwords
  obtain ⟨test, hsearch, rfl⟩ := exists_searches hi
  refine ⟨fun j hj hhit hmiss => ?_, fun hsome hmiss => ?_⟩
  · rw [hsearch.repeatExec_sub h7 h0 hq hj hwords hmiss, hhit, State.searchEnd_setB h0 h7, if_pos rfl]
  · have hpos : 0 < s.b b := (BitVec.pos_iff_ne_zero _).2 hsome
    have hdown := hsearch.repeatExec_sub h7 h0 hq hpos hwords fun k _ hk => hmiss k hk
    rw [hmiss 0 hpos, State.searchEnd_setB h0 h7, if_neg Bool.false_ne_true, if_pos rfl] at hdown
    exact hdown

end Sys2Proof.Machine

/-! Jumps and stops (46_jumps R300 to R323): the families of jumps that differ in their condition only, what each family
does when it is taken, not taken or out of bounds, and the bank jumps. -/

namespace Sys2Proof.Machine

/-! ## The conditions on a register -/

section
variable {x : Word}

theorem isZero48_iff : isZero48 x = true ↔ x = plus0 ∨ x = minus0 := by
  simp [isZero48]

theorem isZero48_of_ne (hplus : x ≠ plus0) (hminus : x ≠ minus0) : isZero48 x = false := by
  rw [← Bool.not_eq_true, isZero48_iff, not_or]
  exact ⟨hplus, hminus⟩

/-- On a word that is neither zero the sign decides conditions 2 and 3 (R302). -/
theorem condition_of_ne (hplus : x ≠ plus0) (hminus : x ≠ minus0) :
    condition 0 x = false ∧ condition 1 x = true ∧ condition 2 x = !x.getLsbD 47 ∧ condition 3 x = x.getLsbD 47 := by
  have hzero := isZero48_of_ne hplus hminus
  have hsign : x.msb = x.getLsbD 47 := BitVec.msb_eq_getLsbD_last x
  exact ⟨hzero, congrArg (!·) hzero, congrArg (!·) hsign, hsign⟩

end

/-! ## Transfers and jumps from where they land as they say -/

section
variable {s : State} {m : Addr}

/-- Only the place that is left decides whether a transfer lands on its own half, not its target (R445, U19). -/
theorem State.CanJump.transfer (h : s.CanJump m) (plain : Bool) (t : Addr) (own : Half) :
    s.transfer plain t own = s.land t own := by
  obtain ⟨-, hword | ⟨hhalf, hpassed⟩⟩ := h
  · exact s.transfer_ordinary plain t own hword
  · cases hfixed : s.fixedWord s.p with
    | none => exact s.transfer_ordinary plain t own hfixed
    | some c => simp [State.transfer, hfixed, hhalf, hpassed]

theorem State.jumpTo_lands (h : s.CanJump m) (plain : Bool) : s.jumpTo plain m = .next (s.land m .upper) := by
  rw [s.jumpTo_inBounds plain m h.1, h.transfer]

/-- The return address is stored, then the lower instruction of m is next (R314). -/
theorem State.returnJump_lands (hq : s.Quiet) (h : s.CanJump m) (hword : s.hasWord m = true) :
    s.returnJump m = .next
      (({ s with memory := Memory.setField s.memory m 24 (s.p + 1) } : State).land m .lower) := by
  have hstored : ({ s with memory := Memory.setField s.memory m 24 (s.p + 1) } : State).CanJump m := h
  rw [State.returnJump, s.storeField_quiet _ _ _ _ hq hword h.1, hstored.transfer]

/-- A selective stop stops where it stands (R310). -/
theorem State.stopThen_stops (hfirst : s.slsStopped = false) (jump : Result) :
    s.stopThen true jump = .next { s with running := false, slsStopped := true, stopRequest := false } := by
  rw [State.stopThen, hfirst]
  rfl

end

/-! ## Families of jumps -/

section
variable {s : State} {c : BitVec 2} {m : Addr} {i : Instr}

/-- The normal jumps differ in their condition only (R302 to R306). -/
theorem exec_normalJump {taken : Bool}
    (hi : (i, taken) ∈ [(Instr.ajp c m, condition c s.a), (.qjp c m, condition c s.q), (.slj m, true),
      (.sj1 m, s.console.jump1), (.sj2 m, s.console.jump2), (.sj3 m, s.console.jump3)]) :
    exec i s = s.jumpIf taken m := by
  simp only [List.mem_cons, List.not_mem_nil, or_false, Prod.mk.injEq] at hi
  rcases hi with ⟨rfl, rfl⟩ | ⟨rfl, rfl⟩ | ⟨rfl, rfl⟩ | ⟨rfl, rfl⟩ | ⟨rfl, rfl⟩ | ⟨rfl, rfl⟩
  all_goals rfl

/-- The return jumps take the conditions of the normal jumps (R315 to R317). -/
theorem exec_returnJump {taken : Bool}
    (hi : (i, taken) ∈ [(Instr.arj c m, condition c s.a), (.qrj c m, condition c s.q), (.rtj m, true),
      (.rj1 m, s.console.jump1), (.rj2 m, s.console.jump2), (.rj3 m, s.console.jump3)]) :
    exec i s = s.returnJumpIf taken m := by
  simp only [List.mem_cons, List.not_mem_nil, or_false, Prod.mk.injEq] at hi
  rcases hi with ⟨rfl, rfl⟩ | ⟨rfl, rfl⟩ | ⟨rfl, rfl⟩ | ⟨rfl, rfl⟩ | ⟨rfl, rfl⟩ | ⟨rfl, rfl⟩
  all_goals rfl

/-- A Stop switch counts in Maintenance Mode only (R310). -/
theorem exec_stopJump {stop : Bool}
    (hi : (i, stop) ∈ [(Instr.sls m, true), (.ss1 m, s.console.maintenance && s.console.stop1),
      (.ss2 m, s.console.maintenance && s.console.stop2), (.ss3 m, s.console.maintenance && s.console.stop3)]) :
    exec i s = s.stopThen stop (s.jumpTo true m) := by
  simp only [List.mem_cons, List.not_mem_nil, or_false, Prod.mk.injEq] at hi
  rcases hi with ⟨rfl, rfl⟩ | ⟨rfl, rfl⟩ | ⟨rfl, rfl⟩ | ⟨rfl, rfl⟩
  all_goals rfl

/-- The stops that go on with a return jump have the same conditions (R318). -/
theorem exec_stopReturnJump {stop : Bool}
    (hi : (i, stop) ∈ [(Instr.srj m, true), (.sr1 m, s.console.maintenance && s.console.stop1),
      (.sr2 m, s.console.maintenance && s.console.stop2), (.sr3 m, s.console.maintenance && s.console.stop3)]) :
    exec i s = s.stopThen stop (s.returnJump m) := by
  simp only [List.mem_cons, List.not_mem_nil, or_false, Prod.mk.injEq] at hi
  rcases hi with ⟨rfl, rfl⟩ | ⟨rfl, rfl⟩ | ⟨rfl, rfl⟩ | ⟨rfl, rfl⟩
  all_goals rfl

end

/-- Settles O35: each instruction is `jumpIf` on its condition; the conditions are read off on the zeros, and off the
sign elsewhere. -/
theorem normalJumps : Obligations.NormalJumps := by
  constructor
  · intro s c m i taken hi
    rw [exec_normalJump hi]
    refine ⟨?_, ?_, ?_⟩
    · rintro rfl hjump
      exact State.jumpTo_lands hjump true
    · rintro rfl
      rfl
    · rintro rfl hout ⟨hslots, hparity⟩
      exact (State.jumpTo_outOfBounds hout true).trans (s.boundsFault_undisturbed hslots hparity)
  · exact ⟨by decide, by decide, by decide, by decide, by decide, by decide, by decide, by decide,
      fun x => condition_of_ne⟩

/-- Settles O36: each instruction is `returnJumpIf` on its condition. -/
theorem returnJumps : Obligations.ReturnJumps := by
  intro s c m i taken hq hi
  rw [exec_returnJump hi]
  refine ⟨?_, ?_, ?_⟩
  · rintro rfl hjump hword
    exact State.returnJump_lands hq hjump hword
  · rintro rfl
    rfl
  · rintro rfl hout
    exact (State.returnJump_outOfBounds hout).trans (State.boundsFault_quiet hq)

/-- Settles O37: each instruction is `stopThen` on its condition, before a normal or a return jump. -/
theorem selectiveStops : Obligations.SelectiveStops := by
  constructor
  · intro s m i stop hi
    rw [exec_stopJump hi]
    constructor
    · rintro rfl hfirst
      exact State.stopThen_stops hfirst _
    · intro hgo hjump
      exact (State.stopThen_jumps hgo _).trans (State.jumpTo_lands hjump true)
  · intro s m i stop hq hi
    rw [exec_stopReturnJump hi]
    constructor
    · rintro rfl hfirst
      exact State.stopThen_stops hfirst _
    · intro hgo hjump hword
      exact (State.stopThen_jumps hgo _).trans (State.returnJump_lands hq hjump hword)

/-! ## The index jump -/

/-- With b = 0 to 6 the designator of IJP names the register to test and to count (R305). -/
theorem exec_ijp_direct {s : State} {b : Desig} (m : Addr) (hb : b ≠ 7) :
    exec (.ijp b m) s =
      if s.b b = 0 then .next s.next24
      else if s.outOfBounds m then s.boundsFault
      else .next ((s.setB b (s.b b - 1)).transfer true m .upper) :=
  s.resolve_direct b m _ hb

/-- Settles O38: the three outcomes are those of the tests on B^b and on the bounds; counting B^b down moves neither the
place that is left nor the bounds. -/
theorem indexJump : Obligations.IndexJump := by
  intro s b m hb
  rw [exec_ijp_direct m hb]
  refine ⟨fun hzero => if_pos hzero, fun hcount hjump => ?_, fun hcount hout ⟨hslots, hparity⟩ => ?_⟩
  · have hcounted : (s.setB b (s.b b - 1)).CanJump m := hjump
    rw [if_neg hcount, hjump.1, hcounted.transfer]
    rfl
  · rw [if_neg hcount, if_pos hout, s.boundsFault_undisturbed hslots hparity]

/-! ## The bank jumps -/

section
variable {s : State} {b : Desig} {m : Addr}

theorem exec_ubjp (hb : b ≠ 7) (hjump : s.CanJump (s.modified b m)) :
    exec (.ubjp b m) s = .next (s.land (s.modified b m) .upper) :=
  (s.bankEffective_direct b m .ubjp _ hb).trans (State.jumpTo_lands hjump false)

theorem exec_bjpl (hb : b ≠ 7) (hjump : s.CanJump (s.modified b m)) :
    exec (.bjpl b m) s = .next (s.land (s.modified b m) .lower) := by
  rw [exec, execBjpl, s.bankEffective_direct b m .bjpl _ hb, hjump.1, hjump.transfer]
  rfl

/-- BRTJ leaves a UBJP to P + 1 at the modified address and goes on at the word after it (R322). -/
theorem exec_brtj (hq : s.Quiet) (hb : b ≠ 7) (hjump : s.CanJump (s.modified b m))
    (hnext : s.outOfBounds (s.modified b m + 1) = false) (hword : s.hasWord (s.modified b m) = true) :
    exec (.brtj b m) s = .next (({ s with
      memory := Memory.setWord s.memory (s.modified b m) (mkUbjp s.config.layouts.bank (s.p + 1)) } : State).land
        (s.modified b m + 1) .upper) := by
  have hstored : ({ s with
      memory := Memory.setWord s.memory (s.modified b m) (mkUbjp s.config.layouts.bank (s.p + 1)) } : State).CanJump
        (s.modified b m) := hjump
  rw [exec, execBrtj, s.bankEffective_direct b m .brtj _ hb, hjump.1, hnext,
    s.writeWord_quiet _ _ _ hq hword, hstored.transfer]
  rfl

/-- One indirect level of a bank jump: the designator and address of the word read go into the jump itself, and U is
left alone (R134, R321). -/
theorem exec_jump_indirect (k : BankKind) (hq : s.Quiet) (hword : s.hasWord m = true) :
    exec (k.jump 7 m) s = .next { s with
      slsStopped := false
      progress := .indirect (bits (Memory.word s.memory m) 15 3) (bits (Memory.word s.memory m) 0 15)
      resumed := some (k.jump (bits (Memory.word s.memory m) 15 3) (bits (Memory.word s.memory m) 0 15)) } := by
  have hlevel : exec (k.jump 7 m) s = s.bankIndirect m k.jump := by cases k <;> rfl
  rw [hlevel, State.bankIndirect, s.readOperand_quiet m _ hq hword]
  rfl

end

/-- The word of a bank jump is read back from the upper half, unless it is that of a character instruction (R104). -/
theorem decode_bankWord {l : Layouts} (hl : l.valid = true) (k : BankKind) (b : Desig) (m : Addr)
    (hchar : characterPattern (bankWord l.bank k b m) = false) :
    decode l .upper (bankWord l.bank k b m) = .instr (k.jump b m) := by
  simp only [Layouts.valid, Bool.and_eq_true] at hl
  obtain ⟨-, hbank⟩ := hl
  rw [decode_of_code63 (bankWord_code (l.bank.apart hbank k) b m), decode63_bankWord hbank k b m hchar]

/-- Settles O39: the three jumps at the modified address, their common indirect level, and the word that BRTJ stores,
which is the bank word of UBJP 0. -/
theorem bankJumps : Obligations.BankJumps := by
  refine ⟨fun s b m hq => ⟨fun hb hjump => ?_, fun hb hjump hnext hword => ?_, fun hword => ?_⟩, fun l m hl hchar => ?_⟩
  · exact ⟨exec_ubjp hb hjump, exec_bjpl hb hjump⟩
  · exact exec_brtj hq hb hjump hnext hword
  · rintro b' m' i j rfl rfl hij
    simp only [List.mem_cons, List.not_mem_nil, or_false, Prod.mk.injEq] at hij
    rcases hij with ⟨rfl, rfl⟩ | ⟨rfl, rfl⟩ | ⟨rfl, rfl⟩
    · exact exec_jump_indirect .ubjp hq hword
    · exact exec_jump_indirect .brtj hq hword
    · exact exec_jump_indirect .bjpl hq hword
  · exact decode_bankWord hl .ubjp 0 m hchar

end Sys2Proof.Machine

/-! Interrupt entries and exits (60_exceptions R432 to R448), the master clears and Restart (70_reset R480 to R483). -/

namespace Sys2Proof.Machine

/-! ## Entries and exits -/

/-- A partial store leaves every other field of its word alone. -/
theorem Memory.bits_setField_apart {mem : Memory} (hw : Memory.wf mem = true) (a : Addr) {k lo lo' k' : Nat}
    (v : BitVec k) (hin : lo' + k' ≤ 48) (hapart : lo + k ≤ lo' ∨ lo' + k' ≤ lo) :
    bits (Memory.word (Memory.setField mem a lo v) a) lo' k' = bits (Memory.word mem a) lo' k' := by
  rw [Memory.setField, Memory.word_setWord_same _ _ _ hw, bits_setBits_apart _ _ _ _ _ hin hapart]

/-- Settles O8: the entry is a partial store and a new position; the laws of the memory say what the store leaves. -/
theorem interruptEntryState : Obligations.InterruptEntryState := by
  intro s f ret hw
  refine ⟨Memory.setField s.memory f 24 ret, rfl, ?_, ?_, ?_, fun a ha => ?_, ?_⟩
  · exact Memory.bits_setField_same f 24 ret hw (by omega)
  · exact Memory.bits_setField_apart hw f ret (by omega) (by omega)
  · exact Memory.bits_setField_apart hw f ret (by omega) (by omega)
  · exact Memory.word_setWord_other _ _ _ _ hw ha
  · exact Memory.wf_setField _ _ _ _ hw

section
variable (s : State) (f ret : Addr)

/-- The memory after an entry (R436). -/
theorem State.entered_memory : (s.entered f ret).memory = Memory.setField s.memory f 24 ret := rfl

theorem State.entered_ccwdWait : (s.entered f ret).ccwdWait = s.ccwdWait := rfl

theorem State.entered_channels : (s.entered f ret).channels = s.channels := rfl

end

section
variable {s : State}

theorem State.cat1Ready_iff (s : State) :
    s.cat1Ready = true ↔ s.intActive = true ∧ s.mode1 = false ∧ s.ir &&& s.maskView ≠ 0 := by
  rw [State.cat1Ready, State.prod, Bool.and_eq_true, Bool.and_eq_true, Bool.not_eq_true', decide_eq_true_iff, and_assoc]

/-- The program's turn of a running program is the entry, when one is due (R432, R448). -/
theorem step_cat1Ready (hmoves : s.moves = []) (hrunning : s.running = true) (hwait : s.ccwdWait = none)
    (hsweep : s.console.sweepMode = false) (hrestart : s.restartRequest = false) (hreads : s.readsOnly = false)
    (hdue : s.cat1Ready = true) : step s = .next (s.cat1Entry s.p s.resumeHalf) := by
  simp [step, State.nextMove, State.program, hmoves, hrunning, hwait, hsweep, hrestart, hreads, hdue]

end

/-- Settles O7: the turn is the entry, whose fixed word has good parity. -/
theorem categoryOneEntry : Obligations.CategoryOneEntry := by
  intro s hmoves hrunning hwait hsweep hrestart hreads hparity hactive hmode hprod
  have hdue : s.cat1Ready = true := s.cat1Ready_iff.2 ⟨hactive, hmode, hprod⟩
  rw [step_cat1Ready hmoves hrunning hwait hsweep hrestart hreads hdue]
  exact congrArg Host.Outcome.next (State.enter_goodParity _ _ _ hparity)

/-- Without the floating point option the words 00030 to 00033 belong to Category II (R77, R445). -/
theorem State.fixedWord_two {s : State} {a : Addr} (hlow : 0o00030 ≤ a) (hhigh : a ≤ 0o00033)
    (hopt : s.config.floatingOption = false) : s.fixedWord a = some .two := by
  have hblock : a = 0o30 ∨ a = 0o31 ∨ a = 0o32 ∨ a = 0o33 := by bv_omega
  rcases hblock with rfl | rfl | rfl | rfl
  all_goals simp [State.fixedWord, hopt, bits]

/-- The exit of a category by the upper SLJ of its fixed word (R445). -/
theorem exec_slj_exit {s : State} {m : Addr} {c : Category} (hhalf : s.half = .upper) (hin : s.outOfBounds m = false)
    (hword : s.fixedWord s.p = some c) (hmode : s.mode c = true) :
    exec (.slj m) s = .next ((s.land m (s.exit c)).clearMode c) :=
  (s.jumpTo_inBounds true m hin).trans (congrArg Host.Outcome.next (s.transfer_exit c m hword hhalf hmode))

/-- Settles O9: the three categories of fixed words. -/
theorem interruptExit : Obligations.InterruptExit := by
  intro s m hhalf hin
  refine ⟨fun hp hmode => ?_, fun hp hmode => ?_, fun hlow hhigh hopt hmode => ?_⟩
  · exact exec_slj_exit (c := .one) hhalf hin (by rw [hp]; rfl) hmode
  · exact exec_slj_exit (c := .three) hhalf hin (by rw [hp]; rfl) hmode
  · exact exec_slj_exit (c := .two) hhalf hin (State.fixedWord_two hlow hhigh hopt) hmode

/-! ## The master clears and Restart -/

theorem channelNumber_cases (x : BitVec 2) : x = 0 ∨ x = 1 ∨ x = 2 ∨ x = 3 := by
  revert x
  decide

theorem ChannelBank.get_set (f : ChannelBank) (x y : BitVec 2) (c : Channel) :
    (f.set x c).get y = if y = x then c else f.get y := by
  rcases channelNumber_cases x with rfl | rfl | rfl | rfl
  all_goals
    rcases channelNumber_cases y with rfl | rfl | rfl | rfl
    all_goals rfl

/-- A channel written leaves the others alone. -/
theorem State.channel_setChannel_other (s : State) {x y : BitVec 2} (h : y ≠ x) (c : Channel) :
    (s.setChannel x c).channel y = s.channel y :=
  (s.channels.get_set x y c).trans (if_neg h)

section
variable (s : State)

theorem State.freeParErr_eq (w : Word) (x : BitVec 2) :
    ∃ bank, s.freeParErr w x = { s with channels := bank } := by
  unfold State.freeParErr
  split
  · exact ⟨_, rfl⟩
  · exact ⟨_, rfl⟩

theorem State.freeParErr_all_eq (w : Word) :
    ∃ bank, (((s.freeParErr w 0).freeParErr w 1).freeParErr w 2).freeParErr w 3 = { s with channels := bank } := by
  obtain ⟨bank0, h0⟩ := s.freeParErr_eq w 0
  obtain ⟨bank1, h1⟩ := ({ s with channels := bank0 } : State).freeParErr_eq w 1
  obtain ⟨bank2, h2⟩ := ({ s with channels := bank1 } : State).freeParErr_eq w 2
  obtain ⟨bank3, h3⟩ := ({ s with channels := bank2 } : State).freeParErr_eq w 3
  rw [h0, h1, h2, h3]
  exact ⟨bank3, rfl⟩

/-- What the Internal Master Clear leaves, but for the values that it leaves open (R480, U20). -/
theorem State.internalClear_eq :
    ∃ (bank : ChannelBank) (w m : Word) (e1 e2 e3 : Half) (d : Nat), s.internalClear = { s with
      a := 0, q := 0, index := { b1 := 0, b2 := 0, b3 := 0, b4 := 0, b5 := 0, b6 := 0 }, p := 0, u := 0
      half := .upper, needRni := true, running := false, slsStopped := false
      augPending := false, augT := AugT.zero
      irff := w &&& (bit48 10 ||| bit48 11 ||| bit48 12 ||| bit48 13 ||| bit48 44)
      mask := m, intActive := false, mode1 := false, mode2 := false, mode3 := false
      exit1 := e1, exit2 := e2, exit3 := e3, lockout := false, channels := bank
      ccwdWait := none, passedExit := none, stopRequest := false, restartRequest := false
      stopAfterRead := true, progress := .idle, resumed := none, draws := d } :=
  have ⟨bank, hbank⟩ := State.freeParErr_all_eq _ s.drawWord.1
  ⟨bank, _, _, _, _, _, _, hbank⟩

/-- A write of the typewriter that is cut off leaves it in lower case (R406). -/
theorem State.cutWrite_eq (x : BitVec 2) : s.cutWrite x = { s with
    typewriter := if (s.channel x).active && s.typewriterWorks x && decide ((s.channel x).dir = .write) then
      s.typewriter.toLowerCase else s.typewriter } := by
  unfold State.cutWrite State.lowerCase
  cases (s.channel x).active
  · rfl
  · simp only [if_true, Bool.true_and]
    split <;> rfl

/-- Only the channel that has the typewriter can have it at work. -/
theorem State.typewriterWorks_other {x : BitVec 2} (hx : x ≠ s.config.typewriterChannel) :
    s.typewriterWorks x = false := by
  unfold State.typewriterWorks State.typewriterConnected
  split
  · rfl
  · simp [hx]

/-- What a clear of channel x leaves of the channel and of the typewriter, if it is the typewriter's (R391, R481). -/
theorem State.wipeChannel_eq (x : BitVec 2) : s.wipeChannel x = ({ s with
    typewriter := if x = s.config.typewriterChannel then
        (if (s.channel x).active && s.typewriterWorks x && decide ((s.channel x).dir = .write) then
          s.typewriter.toLowerCase else s.typewriter).masterClear
      else s.typewriter } : State).setChannel x { s.channel x with
        active := false, addr := 0, count := 0, conn := none, parErr := false, lines := 0, assembly := 0
        held := 0, reverse := false, stepped := false, halted := false } := by
  unfold State.wipeChannel
  rw [s.cutWrite_eq x]
  by_cases hx : x = s.config.typewriterChannel
  · rw [if_pos hx, if_pos hx]
    rfl
  · rw [if_neg hx, if_neg hx, s.typewriterWorks_other hx, Bool.and_false, Bool.false_and]
    rfl

/-- A clear of the channels that exist writes nothing but the channels, the typewriter and free bits of IR. -/
theorem State.wipeInstalled_eq (x : BitVec 2) :
    ∃ bank tw, s.wipeInstalled x = { s with channels := bank, typewriter := tw } := by
  unfold State.wipeInstalled
  split
  · rw [s.wipeChannel_eq x]
    exact ⟨_, _, rfl⟩
  · exact ⟨_, _, rfl⟩

theorem State.clearChannels_eq :
    ∃ ff bank tw d, s.clearChannels = { s with irff := ff, channels := bank, typewriter := tw, draws := d } := by
  unfold State.clearChannels
  obtain ⟨bank0, tw0, h0⟩ := s.freeInactive.wipeInstalled_eq 0
  obtain ⟨bank1, tw1, h1⟩ := ({ s.freeInactive with channels := bank0, typewriter := tw0 } : State).wipeInstalled_eq 1
  obtain ⟨bank2, tw2, h2⟩ := ({ s.freeInactive with channels := bank1, typewriter := tw1 } : State).wipeInstalled_eq 2
  obtain ⟨bank3, tw3, h3⟩ := ({ s.freeInactive with channels := bank2, typewriter := tw2 } : State).wipeInstalled_eq 3
  rw [h0, h1, h2, h3]
  exact ⟨_, bank3, tw3, _, rfl⟩

end

/-- A channel with no operation and no connection. -/
def Channel.Cleared (c : Channel) : Prop := c.active = false ∧ c.conn = none

section
variable {s : State} {x y : BitVec 2}

theorem State.wipeInstalled_same (hx : s.installed x = true) : ((s.wipeInstalled x).channel x).Cleared := by
  rw [State.wipeInstalled, if_pos hx, State.wipeChannel_eq, State.channel_setChannel]
  exact ⟨rfl, rfl⟩

theorem State.wipeInstalled_other (hxy : y ≠ x) : (s.wipeInstalled x).channel y = s.channel y := by
  unfold State.wipeInstalled
  split
  · rw [State.wipeChannel_eq, State.channel_setChannel_other _ hxy]
    rfl
  · rfl

/-- The External Master Clear clears every channel that exists (R481): its own clear does, and the later ones leave it
alone. -/
theorem State.clearChannels_cleared (hx : s.installed x = true) : (s.clearChannels.channel x).Cleared := by
  have hsame : ∀ t : State, t.config = s.config → ((t.wipeInstalled x).channel x).Cleared :=
    fun t ht => State.wipeInstalled_same (by rw [State.installed, ht]; exact hx)
  unfold State.clearChannels
  rcases channelNumber_cases x with rfl | rfl | rfl | rfl
  · rw [State.wipeInstalled_other (by decide), State.wipeInstalled_other (by decide),
      State.wipeInstalled_other (by decide)]
    exact hsame _ (by simp)
  · rw [State.wipeInstalled_other (by decide), State.wipeInstalled_other (by decide)]
    exact hsame _ (by simp)
  · rw [State.wipeInstalled_other (by decide)]
    exact hsame _ (by simp)
  · exact hsame _ (by simp)

end

section
variable (s : State)

/-- An External Master Clear ends a CCWD that waits, which is then a pass (R392, R481). -/
theorem State.externalClear_position :
    s.externalClear.p = (if s.ccwdWait = none then s.p else s.nextP) ∧ s.externalClear.ccwdWait = none := by
  obtain ⟨ff, bank, tw, d, hclear⟩ := s.clearChannels_eq
  rw [State.externalClear, hclear]
  cases s.ccwdWait
  · exact ⟨rfl, rfl⟩
  · exact ⟨rfl, rfl⟩

theorem State.externalClear_storage :
    s.externalClear.memory = s.memory ∧ s.externalClear.badParity = s.badParity
      ∧ s.externalClear.channels = s.clearChannels.channels := by
  obtain ⟨ff, bank, tw, d, hclear⟩ := s.clearChannels_eq
  rw [State.externalClear, hclear]
  split
  · exact ⟨rfl, rfl, rfl⟩
  · exact ⟨rfl, rfl, rfl⟩

/-- With good parity at 00000 Restart is the clear and then the return jump (R483). -/
theorem State.restart_goodParity (hparity : s.badParity = []) : s.restart = ({ s.externalClear with
    intActive := false, autoLoad := none, running := true, stopRequest := false, restartRequest := false } :
      State).entered 0 s.externalClear.p :=
  State.enter_goodParity _ _ _ (s.externalClear_storage.2.1.trans hparity)

end

/-- Settles O55: the fields that the Internal Master Clear writes, and the return jump of Restart after the clear of the
channels. -/
theorem clearAndRestart : Obligations.ClearAndRestart := by
  intro s
  refine ⟨?_, fun hw hparity => ?_⟩
  · obtain ⟨bank, w, m, e1, e2, e3, d, hclear⟩ := s.internalClear_eq
    rw [hclear]
    refine ⟨rfl, rfl, rfl, rfl, fun b => ?_, rfl, rfl, rfl, rfl, rfl, rfl, rfl, rfl, rfl, rfl, fun j hj => ?_,
      rfl, rfl, rfl⟩
    · rcases Desig.eq_cases b with rfl | rfl | rfl | rfl | rfl | rfl | rfl | rfl
      all_goals rfl
    · have hout : (bit48 10 ||| bit48 11 ||| bit48 12 ||| bit48 13 ||| bit48 44).getLsbD j = false := by
        revert j
        decide
      rw [BitVec.getLsbD_and, hout, Bool.and_false]
  · obtain ⟨hposition, hwait⟩ := s.externalClear_position
    obtain ⟨hmemory, -, hchannels⟩ := s.externalClear_storage
    have hstored : s.restart.memory = Memory.setField s.memory 0 24 s.externalClear.p := by
      rw [s.restart_goodParity hparity, State.entered_memory, hmemory]
    refine ⟨?_, ?_, ?_, ?_, ?_, ?_, fun a ha => ?_, fun x hx => ?_⟩
    · rw [s.restart_goodParity hparity]
      rfl
    · rw [s.restart_goodParity hparity]
      rfl
    · rw [s.restart_goodParity hparity]
      rfl
    · rw [s.restart_goodParity hparity]
      rfl
    · rw [hstored, Memory.bits_setField_same 0 24 _ hw (by omega), hposition]
    · rw [s.restart_goodParity hparity, State.entered_ccwdWait, hwait]
    · rw [hstored]
      exact Memory.word_setWord_other _ _ _ _ hw ha
    · have hbank : s.restart.channel x = s.clearChannels.channel x := by
        rw [State.channel, s.restart_goodParity hparity, State.entered_channels, hchannels, State.channel]
      rw [hbank]
      exact State.clearChannels_cleared hx

/-- Settles O56: every field of the state after reset is known. -/
theorem resetSound : Obligations.ResetSound := by
  refine ⟨?_, rfl, rfl, rfl, rfl, rfl, rfl, rfl, rfl⟩
  exact .of_clear reset_memory_wf rfl rfl

end Sys2Proof.Machine

/-! Character handling, Augment and the bounds instructions (47_char_aug_bounds R330 to R343). -/

namespace Sys2Proof.Machine

/-! ## Characters -/

section
variable {s : State} {b v : Desig} {m : Addr}

/-- The eight positions (R331). -/
theorem characterPosition_iff (p : Addr) :
    characterPosition p = true ↔ p.toNat ∈ [0, 6, 12, 18, 24, 30, 36, 42] := by
  simp only [characterPosition, Bool.and_eq_true, decide_eq_true_eq, List.mem_cons, List.not_mem_nil, or_false]
  omega

theorem State.character_indirect (hv : v ≠ 7) (hp : (s.b v).toNat ∈ [0, 6, 12, 18, 24, 30, 36, 42])
    (k : Addr → Nat → Result) : s.character 7 v m k = s.characterIndirect m := by
  rw [State.character, if_neg hv, if_pos ((characterPosition_iff _).2 hp), if_pos rfl]

theorem State.character_illegal (hv : v ≠ 7) (hp : (s.b v).toNat ∉ [0, 6, 12, 18, 24, 30, 36, 42])
    (k : Addr → Nat → Result) : s.character b v m k = s.illegal := by
  rw [State.character, if_neg hv, if_neg (mt (characterPosition_iff _).1 hp)]

/-- LDCH (R333). -/
theorem execLdch_canRead (hv : v ≠ 7) (hp : (s.b v).toNat ∈ [0, 6, 12, 18, 24, 30, 36, 42]) (hs : s.CanRead b m) :
    execLdch b v m s
      = .next ({ s with a := (bits (s.operand b m) (s.b v).toNat 6).setWidth 48 } : State).advance := by
  obtain ⟨hq, hb, hword⟩ := hs
  rw [execLdch, State.character_direct hb hv hp, s.readOperand_quiet _ _ hq hword]
  rfl

/-- STCH: the word is read, then six of its bits are written (R334). -/
theorem execStch_canStore (hv : v ≠ 7) (hp : (s.b v).toNat ∈ [0, 6, 12, 18, 24, 30, 36, 42]) (hs : s.CanStore b m) :
    execStch b v m s
      = .next ({ s with memory := Memory.setField s.memory (s.modified b m) (s.b v).toNat (bits s.a 0 6) } :
          State).advance := by
  obtain ⟨⟨hq, hb, hword⟩, hin⟩ := hs
  rw [execStch, State.character_direct hb hv hp, hin, if_neg Bool.false_ne_true, s.readOperand_quiet _ _ hq hword,
    s.writeField_quiet _ _ _ _ hq hword]

/-- Both have the same indirect level (R330). -/
theorem exec_character_indirect (hv : v ≠ 7) (hp : (s.b v).toNat ∈ [0, 6, 12, 18, 24, 30, 36, 42]) {i : Instr}
    (hi : i ∈ [Instr.ldch 7 v m, .stch 7 v m]) : exec i s = s.characterIndirect m := by
  simp only [List.mem_cons, List.not_mem_nil, or_false] at hi
  rcases hi with rfl | rfl
  · rw [exec, execLdch, State.character_indirect hv hp]
  · rw [exec, execStch, State.character_indirect hv hp]

/-- A position between characters (R331, R332). -/
theorem exec_character_illegal (hv : v ≠ 7) (hp : (s.b v).toNat ∉ [0, 6, 12, 18, 24, 30, 36, 42]) :
    exec (.ldch b v m) s = s.illegal ∧ exec (.stch b v m) s = s.illegal := by
  constructor
  · rw [exec, execLdch, State.character_illegal hv hp]
  · rw [exec, execStch, State.character_illegal hv hp]

end

/-- Settles O40: the cases of `State.character`; v = 7 is the first of them. -/
theorem characterInstructions : Obligations.CharacterInstructions := by
  refine ⟨fun s b v m hv hp => ⟨execLdch_canRead hv hp, execStch_canStore hv hp, fun hq hword i hi => ?_⟩,
    fun s b v m => ⟨fun hv hp ⟨hslots, hparity⟩ => ?_, rfl, rfl⟩⟩
  · rw [exec_character_indirect hv hp hi, State.characterIndirect, s.readOperand_quiet m _ hq hword]
    rfl
  · rw [← s.illegal_undisturbed hslots hparity]
    exact exec_character_illegal hv hp

/-! ## Augment -/

section
variable {s : State} {y : Addr}

theorem exec_aug_lower (hhalf : s.half = .lower) : exec (.aug y) s = .next s.next24 := by
  rw [exec, execAug, hhalf]

theorem exec_aug_direct (hhalf : s.half = .upper) (hv : augV s.config.layouts.aug y ≠ 7) :
    exec (.aug y) s = .next (s.augment y) := by
  rw [exec, execAug, hhalf]
  exact if_neg hv

theorem exec_aug_indirect (hhalf : s.half = .upper) (hv : augV s.config.layouts.aug y = 7) :
    exec (.aug y) s = s.augIndirect := by
  rw [exec, execAug, hhalf]
  exact if_pos hv

end

section
variable {l : AugLayout}

/-- The parts of a valid layout (R336). -/
theorem AugLayout.valid_places (hl : l.valid = true) :
    l.v.length = 3 ∧ l.v.Nodup ∧ (∀ p ∈ l.v, p < 15)
      ∧ ∀ t ∈ [l.t2, l.t1, l.t0], t < 15 ∧ t ∉ l.v := by
  simp only [AugLayout.valid, Places.fit, Bool.and_eq_true, decide_eq_true_eq, List.all_eq_true] at hl
  obtain ⟨hlength, hbelow, hnodup⟩ := hl
  obtain ⟨hv, -, hapart⟩ := List.nodup_append.1 hnodup
  refine ⟨hlength, hv, fun p hp => hbelow p (List.mem_append_left _ hp), fun t ht => ⟨?_, fun htv => ?_⟩⟩
  · exact hbelow t (List.mem_append_right _ ht)
  · exact hapart t htv t ht rfl

/-- A field in pieces of the upper half of a word is read as it stands 24 places higher in the word. -/
theorem gather_upper (u : Word) {places : Places} (hp : ∀ p ∈ places, p < 15) :
    gather (bits u 24 15) places = gather u (places.map (24 + ·)) := by
  induction places with
  | nil => rfl
  | cons p rest ih =>
    rw [List.map_cons, gather, gather, ih fun q hq => hp q (List.mem_cons_of_mem p hq), getLsbD_bits,
      decide_eq_true (hp p List.mem_cons_self), Bool.true_and]

/-- A new v in an AUG reads as it was written (R337). -/
theorem augV_putAugV (hl : l.valid = true) (u : Word) (v : Desig) : augV l (bits (putAugV l u v) 24 15) = v := by
  obtain ⟨hlength, hnodup, hbelow, -⟩ := AugLayout.valid_places hl
  have hread := gather_scatter_same u (l.v.map (24 + ·)) v.toNat
    (hnodup.map fun p q (h : 24 + p = 24 + q) => by omega)
    (fun q hq => by
      obtain ⟨p, hp, rfl⟩ := List.mem_map.1 hq
      have := hbelow p hp
      omega)
  rw [augV, gather_upper _ hbelow, putAugV, hread, List.length_map, hlength]
  rw [Nat.mod_eq_of_lt v.isLt, BitVec.ofNat_toNat, BitVec.setWidth_eq]

/-- A new v in an AUG leaves its t designators (R337). -/
theorem augBits_putAugV (hl : l.valid = true) (u : Word) (v : Desig) :
    augBits l (bits (putAugV l u v) 24 15) = augBits l (bits u 24 15) := by
  obtain ⟨-, -, -, hapart⟩ := AugLayout.valid_places hl
  have hbit : ∀ t ∈ [l.t2, l.t1, l.t0], (bits (putAugV l u v) 24 15).getLsbD t = (bits u 24 15).getLsbD t := by
    intro t ht
    obtain ⟨-, hout⟩ := hapart t ht
    have hshift : 24 + t ∉ l.v.map (24 + ·) := by
      rintro hmem
      obtain ⟨p, hp, heq⟩ := List.mem_map.1 hmem
      obtain rfl : p = t := by omega
      exact hout hp
    rw [getLsbD_bits, getLsbD_bits, putAugV, getLsbD_scatter _ _ _ _ hshift]
  rw [augBits, augBits, hbit l.t2 (by simp), hbit l.t1 (by simp), hbit l.t0 (by simp)]

end

/-- The magnitude of a word is its value without the sign (R168). -/
theorem onesValue_mag48 (x : Word) : onesValue (mag48 x) = ((onesValue x).natAbs : Int) ∧ (mag48 x).msb = false := by
  unfold mag48 onesValue
  cases hx : x.msb
  · simp [hx]
  · simp [hx]

/-- Settles O41: the three cases of AUG, the layout laws of a new v, and the magnitude that t2 asks for. -/
theorem augment : Obligations.Augment := by
  refine ⟨fun s y => ⟨exec_aug_lower, exec_aug_direct, fun hhalf hv hq hword => ?_⟩,
    fun l u v hl => ⟨augV_putAugV hl u v, augBits_putAugV hl u v⟩, fun s x => ⟨fun hpending ht2 => ?_, ?_, ?_⟩⟩
  · rw [exec_aug_indirect hhalf hv, State.augIndirect, s.readOperand_quiet _ _ hq hword]
    rfl
  · have huse : s.augmented x = mag48 x := by simp [State.augmented, State.useMagnitude, hpending, ht2]
    rw [huse]
    exact onesValue_mag48 x
  · intro hnone
    simp [State.augmented, State.useMagnitude, hnone]
  · intro ht2
    simp [State.augmented, State.useMagnitude, ht2]

/-! ## Bounds -/

/-- The interrupt system with the bounds interrupt selected locks the bounds registers (R341). -/
theorem State.boundsLocked_iff (s : State) :
    s.boundsLocked = true ↔ s.intActive = true ∧ s.mask.getLsbD 42 = true := by
  rw [State.boundsLocked, Bool.and_eq_true, s.selected_assigned 42 (by decide)]

/-- Settles O21: the two cases of the lock. -/
theorem boundsInstructions : Obligations.BoundsInstructions := by
  refine fun s y => ⟨fun hopen => ?_, fun hactive hmask hquiet => ?_⟩
  · have hfree : ¬ s.boundsLocked = true := by
      rw [s.boundsLocked_iff]
      rintro ⟨hactive, hmask⟩
      rcases hopen with h | h
      · exact Bool.false_ne_true (h.symm.trans hactive)
      · exact Bool.false_ne_true (h.symm.trans hmask)
    exact ⟨if_neg hfree, if_neg hfree⟩
  · have hlocked : s.boundsLocked = true := s.boundsLocked_iff.2 ⟨hactive, hmask⟩
    have htrap := s.illegal_undisturbed hquiet.1 hquiet.2
    exact ⟨(if_pos hlocked).trans htrap, (if_pos hlocked).trans htrap⟩

end Sys2Proof.Machine

/-! The internal functions, SEN and the interrupt registers (48_internal R350 to R372, 60_exceptions R443), and the codes
that have no meaning (30_encoding R111, R112). -/

namespace Sys2Proof.Machine

/-! ## INF -/

section
variable {s : State} {y : Addr}

theorem exec_inf_unlocked (hopen : s.locked = false) :
    exec (.inf y) s = Result.thenNext24 (s.internalFunction y) := by
  rw [exec, execInf, hopen]
  rfl

/-- An INF whose code has an effect (R350). -/
theorem exec_inf_next (hopen : s.locked = false) {t : State} (hcode : s.internalFunction y = .next t) :
    exec (.inf y) s = .next t.next24 := by
  rw [exec_inf_unlocked hopen, hcode]
  rfl

theorem exec_inf_fault (hopen : s.locked = false) {f : Fault} (hcode : s.internalFunction y = .fault f) :
    exec (.inf y) s = .fault f := by
  rw [exec_inf_unlocked hopen, hcode]
  rfl

/-- The selects of an installed channel x (R351, R353, R354). -/
theorem exec_inf_channel (hopen : s.locked = false) {x : BitVec 2} (hx : s.installed x = true)
    (hname : codeChannel y = x) {k : BitVec 2 → State} (hrow : s.internalFunction y = s.onChannel y k) :
    exec (.inf y) s = .next (k x).next24 := by
  subst hname
  exact exec_inf_next hopen (hrow.trans (if_pos hx))

/-- A select of a channel that the system lacks (U13, D29). -/
theorem State.onChannel_absent (hx : s.installed (codeChannel y) = false) (k : BitVec 2 → State) :
    s.onChannel y k = .fault .channelNotInstalled := by
  rw [State.onChannel, hx]
  rfl

end

/-- Settles O42: each row is read off from the model's table, those that name a channel for each of the four. -/
theorem internalFunctions : Obligations.InternalFunctions := by
  refine ⟨fun s x ⟨hopen, hx⟩ => ?_, fun s t y hopen hrow => ?_⟩
  · rcases channelNumber_cases x with rfl | rfl | rfl | rfl
    all_goals exact ⟨exec_inf_channel hopen hx rfl (k := fun x => (s.setMask (10 + x.toNat)).clearIr (10 + x.toNat)) rfl,
      exec_inf_channel hopen hx rfl (k := fun x => (s.clearMask (10 + x.toNat)).clearIr (10 + x.toNat)) rfl,
      exec_inf_channel hopen hx rfl (k := fun x => s.setMask (30 + x.toNat)) rfl,
      exec_inf_channel hopen hx rfl (k := fun x => s.clearMask (30 + x.toNat)) rfl,
      exec_inf_channel hopen hx rfl (k := fun x => s.setMask (20 + x.toNat)) rfl,
      exec_inf_channel hopen hx rfl (k := fun x => s.clearMask (20 + x.toNat)) rfl⟩
  · refine exec_inf_next hopen ?_
    refine (List.forall_iff_forall_mem (p := fun row => s.internalFunction row.1 = .next row.2)).1 ?_ (y, t) hrow
    simp only [List.Forall]
    and_intros
    all_goals rfl

/-! ## Codes without a meaning -/

section
variable {s : State} {y : Addr}

/-- A code of no row (R366, U6). -/
theorem State.internalFunction_undefined
    (hy : y.toNat ∉ [0o000, 0o001, 0o010, 0o011, 0o020, 0o021, 0o030, 0o031, 0o110, 0o111, 0o120, 0o121, 0o130, 0o131,
      0o200, 0o201, 0o210, 0o211, 0o220, 0o221, 0o230, 0o231, 0o300, 0o301, 0o310, 0o311, 0o320, 0o321, 0o330, 0o331,
      0o400, 0o410, 0o411, 0o412, 0o420, 0o421, 0o422, 0o430, 0o431, 0o432, 0o440, 0o441, 0o442, 0o450, 0o451, 0o452,
      0o500, 0o501, 0o510, 0o511, 0o520, 0o521, 0o522, 0o530, 0o531, 0o532, 0o540, 0o541,
      0o600, 0o601, 0o602, 0o610, 0o611]) : s.internalFunction y = .fault .undefinedInternalFunction := by
  unfold State.internalFunction
  split
  case h_64 => rfl
  all_goals
    rename_i hcode
    exact absurd (by rw [hcode]; decide) hy

/-- The rows that name a channel, where the system lacks it (R383, U13). -/
theorem State.internalFunction_absent
    (hy : y.toNat ∈ [0o000, 0o001, 0o010, 0o011, 0o020, 0o021, 0o030, 0o031, 0o200, 0o201, 0o210, 0o211, 0o220, 0o221,
      0o230, 0o231, 0o300, 0o301, 0o310, 0o311, 0o320, 0o321, 0o330, 0o331])
    (hx : s.installed (bits y 3 2) = false) : s.internalFunction y = .fault .channelNotInstalled := by
  have habsent : ∀ k, s.onChannel y k = .fault .channelNotInstalled := State.onChannel_absent hx
  refine (List.forall_iff_forall_mem
    (p := fun n => y.toNat = n → s.internalFunction y = .fault .channelNotInstalled)).1 ?_ _ hy rfl
  simp only [List.Forall]
  and_intros
  all_goals
    intro hcode
    simp only [State.internalFunction, hcode, habsent]

/-- A field of the lower part of a word is that field of the word. -/
theorem bits_of_low {n : Nat} (w : BitVec n) {k lo len : Nat} (h : lo + len ≤ k) :
    bits (bits w 0 k) lo len = bits w lo len := by
  apply BitVec.eq_of_getLsbD_eq
  intro i hi
  rw [getLsbD_bits, getLsbD_bits, getLsbD_bits, decide_eq_true (show lo + i < k by omega), Nat.zero_add, Bool.true_and]

/-- The word has no lower instruction, or the lower instruction has one of the codes that are 48 bits long (R112). -/
theorem decode_lower_refused {l : Layouts} {u : Word}
    (hu : bits u 18 6 = 0o63 ∨ (bits u 18 6 = 0o74 ∧ bits u 15 3 ≠ 7) ∨ bits u 42 6 = 0o74
      ∨ (bits u 42 6 = 0o63 ∧ characterPattern u = false)) :
    decode l .lower u = .refused .fortyEightBitCodeInLowerHalf := by
  have hupper : (decide (Half.lower = .upper) && isFortyEightBit u) = false := rfl
  rw [decode, hupper, if_neg Bool.false_ne_true]
  split
  · rfl
  · next hlower =>
    have hcode : bits u 18 6 = 0o63 ∨ (bits u 18 6 = 0o74 ∧ bits u 15 3 ≠ 7) := by
      rcases hu with h | h | h | ⟨h, hchar⟩
      · exact .inl h
      · exact .inr h
      · exact absurd (by simp [noLowerInstruction, isFortyEightBit, h]) hlower
      · exact absurd (by simp [noLowerInstruction, isFortyEightBit, h, hchar]) hlower
    have hread : bits (halfOf u .lower) 18 6 = bits u 18 6 ∧ bits (halfOf u .lower) 15 3 = bits u 15 3 :=
      ⟨bits_of_low u (by omega), bits_of_low u (by omega)⟩
    rcases hcode with h | ⟨h, h7⟩
    · simp only [decode24, hread, h]
      rfl
    · simp only [decode24, hread, h]
      exact if_neg h7

end

/-- Settles O43: the codes of INF, the position of the lower half, and the two undefined rows of the opcode table. -/
theorem undefinedCodes : Obligations.UndefinedCodes := by
  refine ⟨fun s y hopen => ⟨fun hy => ?_, fun hy hx => ?_⟩,
    fun s hready hstop hrni hresumed hhalf hu => ?_, fun s y => ⟨rfl, rfl⟩⟩
  · exact exec_inf_fault hopen (State.internalFunction_undefined hy)
  · exact exec_inf_fault hopen (State.internalFunction_absent hy hx)
  · have hrefused := decode_lower_refused (l := s.config.layouts) hu
    rw [step_ready_held hready hstop hrni, State.execute]
    simp only [hresumed, hhalf, hrefused]


/-! ## The lockout -/

/-- Settles O44: each of the eight is an `if` on the lock. -/
theorem lockout : Obligations.Lockout := by
  intro s x c y m n i hlockout hactive hmode ⟨hslots, hparity⟩ hi
  have hlocked : s.locked = true := by simp [State.locked, hlockout, hactive, hmode]
  rw [← s.illegal_undisturbed hslots hparity]
  simp only [List.mem_cons, List.not_mem_nil, or_false] at hi
  rcases hi with rfl | rfl | rfl | rfl | rfl | rfl | rfl | rfl
  all_goals exact if_pos hlocked

/-! ## SEN -/

section
variable {s : State} {y : Addr}

theorem exec_sen_upper (hhalf : s.half = .upper) {c : Bool} (hsense : s.sense y = some c) :
    exec (.sen y) s = .next (s.skipIf c) := by
  simp only [exec, execSen, hhalf, hsense]

theorem exec_sen_undefined (hhalf : s.half = .upper) (hsense : s.sense y = none) :
    exec (.sen y) s = .fault .undefinedSense := by
  simp only [exec, execSen, hhalf, hsense]

/-- The code of an activity test on channel x names channel x (R369). -/
theorem State.sense_channel (x : BitVec 2) :
    s.sense (BitVec.ofNat 15 (8 * x.toNat)) = some (!(s.installed x && (s.channel x).active))
      ∧ s.sense (BitVec.ofNat 15 (8 * x.toNat + 1)) = some (s.installed x && (s.channel x).active) := by
  rcases channelNumber_cases x with rfl | rfl | rfl | rfl
  all_goals exact ⟨rfl, rfl⟩

/-- A code of no row (R369, U6). -/
theorem State.sense_undefined
    (hy : y.toNat ∉ [0o000, 0o001, 0o010, 0o011, 0o020, 0o021, 0o030, 0o031, 0o110, 0o111, 0o120, 0o121, 0o130, 0o131,
      0o210, 0o211, 0o220, 0o221, 0o230, 0o231]) : s.sense y = none := by
  unfold State.sense
  simp only
  split
  case h_21 => rfl
  all_goals
    rename_i hcode
    exact absurd (by rw [hcode]; decide) hy

end

/-- Settles O45: the rows of the model's table, for a code y written as a number. -/
theorem sense : Obligations.Sense := by
  refine fun s y c x => ⟨fun hhalf => ?_, fun hhalf => ⟨fun hrow => exec_sen_upper hhalf ?_, fun hy => ?_⟩⟩
  · simp only [exec, execSen, hhalf]
  · have hcode : BitVec.ofNat 15 y.toNat = y := BitVec.eq_of_toNat_eq (by simp)
    rw [← hcode]
    refine (List.forall_iff_forall_mem (p := fun row => s.sense (BitVec.ofNat 15 row.1) = some row.2)).1 ?_ _ hrow
    obtain ⟨hinactive, hactive⟩ := s.sense_channel x
    exact ⟨hinactive, hactive, rfl, rfl, rfl, rfl, rfl, rfl, rfl, rfl, rfl, rfl, rfl, rfl⟩
  · exact exec_sen_undefined hhalf (State.sense_undefined hy)

/-! ## The interrupt registers -/

theorem assignedBits_eq : assignedBits = 0o3700170074036076 := by decide

theorem ite_and_assigned {c : Prop} [Decidable c] {w : Word} (h : w &&& assignedBits = w) :
    (if c then w else 0) &&& assignedBits = if c then w else 0 := by
  split
  · exact h
  · exact BitVec.zero_and

/-- The channels drive assigned bits only (R29). -/
theorem State.channelIr_and_assigned (s : State) (x : BitVec 2) : s.channelIr x &&& assignedBits = s.channelIr x := by
  have hparity : bit48 (20 + x.toNat) &&& assignedBits = bit48 (20 + x.toNat) := by
    revert x
    decide
  have hline : bit48 (30 + x.toNat) &&& assignedBits = bit48 (30 + x.toNat) := by
    revert x
    decide
  refine ite_and_assigned ?_
  rw [BitVec.and_or_distrib_right, ite_and_assigned hparity, ite_and_assigned hline]

/-- An unassigned bit of IR reads as 0 (R29, R370). -/
theorem State.ir_and_assigned (s : State) : s.ir &&& assignedBits = s.ir := by
  have hflip : flipFlopBits &&& assignedBits = flipFlopBits := by decide
  simp only [State.ir, BitVec.and_or_distrib_right, BitVec.and_assoc, hflip, s.channelIr_and_assigned]

section
variable (w : Word) {i : Nat} (j : Nat)

/-- A word with bit i set. -/
theorem getLsbD_or_bit48 (hi : i < 48) : (w ||| bit48 i).getLsbD j = (decide (j = i) || w.getLsbD j) := by
  rw [BitVec.getLsbD_or, getLsbD_bit48, decide_eq_true hi, Bool.true_and, Bool.or_comm, decide_eq_decide.2 eq_comm]

/-- A word with bit i cleared. -/
theorem getLsbD_and_not_bit48 (hi : i < 48) :
    (w &&& ~~~bit48 i).getLsbD j = (!decide (j = i) && w.getLsbD j) := by
  by_cases hj : j < 48
  · rw [BitVec.getLsbD_and, BitVec.getLsbD_not, getLsbD_bit48, decide_eq_true hi, decide_eq_true hj, Bool.true_and,
      Bool.true_and, Bool.and_comm, decide_eq_decide.2 eq_comm]
  · rw [BitVec.getLsbD_of_ge _ _ (by omega), BitVec.getLsbD_of_ge _ _ (by omega), Bool.and_false]

end

/-- Settles O46: the views of the three registers, and one bit of a word set or cleared. -/
theorem interruptRegisters : Obligations.InterruptRegisters := by
  refine ⟨fun s => ⟨rfl, ?_, ?_, ?_⟩, fun s i j hi => ⟨?_, ?_, ?_, ?_⟩⟩
  · rw [← assignedBits_eq]
    rfl
  · have hprod : s.prod = s.ir &&& s.mask := by
      rw [State.prod, State.maskView, BitVec.and_comm s.mask, ← BitVec.and_assoc, s.ir_and_assigned]
    rw [← hprod]
    rfl
  · rw [← assignedBits_eq, ← s.ir_and_assigned, BitVec.and_assoc, BitVec.and_not_self]
    exact BitVec.and_zero
  · exact getLsbD_or_bit48 _ j hi
  · exact getLsbD_and_not_bit48 _ j hi
  · exact getLsbD_or_bit48 _ j hi
  · exact getLsbD_and_not_bit48 _ j hi

end Sys2Proof.Machine

/-! The seven input/output instructions (49_io R383 to R392, R395, R404 to R406, R419). -/

namespace Sys2Proof.Machine

/-! ## Rejects and answers -/

section
variable {s : State} {x : BitVec 2} {c : BitVec 12} {n : Addr}

theorem State.rejectJump_lands (h : s.CanJump n) : s.rejectJump n = .next (s.land n .upper) :=
  State.jumpTo_lands h false

/-- An active channel rejects (R386 to R389). -/
theorem State.onIo_busy (hx : s.CanUse x) (hactive : (s.channel x).active = true) (hjump : s.CanJump n) (r : Result) :
    s.onIo x (if (s.channel x).active then s.rejectJump n else r) = .next (s.land n .upper) := by
  rw [State.onIo_obeyed hx, if_pos hactive, State.rejectJump_lands hjump]

/-- The next answer is the head of the list; with none left it is No Response (R395). -/
theorem State.takeAnswer_eq_iff {a : Answer} (ha : a ≠ .noResponse) :
    s.takeAnswer.1 = a ↔ s.answers.head? = some a := by
  rw [State.takeAnswer]
  cases s.answers with
  | nil => simpa using ha.symm
  | cons b rest => simp

/-! ## CONN -/

/-- Who replies to a Connect code (R386, R395, R405): nobody to one with bad parity. -/
theorem State.connectReply_eq : s.connectReply x c = (decide (s.answers.head? ≠ some .parity)
    && if s.typewriterNamed x c then s.console.typewriterOn && !s.typewriter.connLocked
       else decide (s.answers.head? = some .reply)) := by
  have hparity : s.takeAnswer.1 = .parity ↔ s.answers.head? = some .parity := State.takeAnswer_eq_iff (by decide)
  have hreply : s.takeAnswer.1 = .reply ↔ s.answers.head? = some .reply := State.takeAnswer_eq_iff (by decide)
  simp only [State.connectReply, ne_eq, hparity, hreply]
  split
  · rw [Bool.and_comm]
  · by_cases h : s.answers.head? = some .reply
    · simp [h]
    · simp [h]

/-- What a Connect code leaves (R386, R419): the connection that was replied to, and a lock on a typewriter that is named
and on and has seen bad parity. -/
theorem State.connect_eq : s.connect x c = ({ s with
    answers := s.answers.tail
    typewriter := { s.typewriter with
      connLocked := s.typewriter.connLocked || (s.typewriterNamed x c && s.console.typewriterOn
        && decide (s.answers.head? = some .parity)) } } : State).setChannel x { s.channel x with
      conn := if s.connectReply x c then some { equipment := bits c 9 3, unit := bits c 0 9 } else none } := by
  have hparity : s.takeAnswer.1 = .parity ↔ s.answers.head? = some .parity := State.takeAnswer_eq_iff (by decide)
  rw [State.connect, decide_eq_decide.2 hparity]
  cases s.typewriterNamed x c && s.console.typewriterOn && decide (s.answers.head? = some .parity)
  · rw [Bool.or_false]
    rfl
  · rw [Bool.or_true]
    rfl

theorem execConn_replied (hx : s.CanUse x) (hidle : (s.channel x).active = false) (hreply : s.connectReply x c = true) :
    execConn x c n s = .next (s.connect x c).advance := by
  rw [execConn, State.onIo_obeyed hx, hidle, hreply]
  rfl

theorem execConn_rejected (hx : s.CanUse x) (hidle : (s.channel x).active = false)
    (hreply : s.connectReply x c = false) (hin : s.outOfBounds n = false) (hjump : (s.connect x c).CanJump n) :
    execConn x c n s = .next ((s.connect x c).land n .upper) := by
  rw [execConn, State.onIo_obeyed hx, hidle, hreply, hin, ← State.rejectJump_lands hjump]
  rfl

end

/-- Settles O47: busy, replied, rejected, and rejected out of bounds. -/
theorem connect : Obligations.Connect := by
  intro s x c n replied hx hreplied
  have hreply : s.connectReply x c = replied := State.connectReply_eq.trans hreplied.symm
  refine ⟨fun hactive hjump => State.onIo_busy hx hactive hjump _, ?_, ?_, ?_⟩
  · rintro hidle rfl
    have hgood : s.answers.head? ≠ some .parity := by
      intro hbad
      simp [hbad] at hreplied
    refine (execConn_replied hx hidle hreply).trans ?_
    rw [State.connect_eq, hreply, decide_eq_false hgood, Bool.and_false, Bool.or_false]
    rfl
  · rintro hidle rfl hjump
    have hsent : (s.connect x c).CanJump n := by
      rw [State.connect_eq]
      exact hjump
    refine (execConn_rejected hx hidle hreply hjump.1 hsent).trans ?_
    rw [State.connect_eq, hreply]
    rfl
  · rintro hidle rfl hout ⟨hslots, hparity⟩
    exact (execConn_outOfBounds hx hout hidle hreply).trans (s.takeAnswer.2.boundsFault_undisturbed hslots hparity)

/-! ## EXTF -/

section
variable {s t : State} {x : BitVec 2} {c : BitVec 12} {n : Addr}

theorem State.conn_of_typewriterConnected (h : s.typewriterConnected x = true) : (s.channel x).conn ≠ none := by
  intro hnone
  simp [State.typewriterConnected, hnone] at h

/-- Another equipment answers as it chooses (R387, R395). -/
theorem State.functionReply_other (hconn : (s.channel x).conn ≠ none) (hother : s.typewriterConnected x = false) :
    s.functionReply x = decide (s.answers.head? = some .reply) := by
  have hreply : s.takeAnswer.1 = .reply ↔ s.answers.head? = some .reply := State.takeAnswer_eq_iff (by decide)
  simp [State.functionReply, hconn, hother, hreply]

/-- The typewriter replies when it is on, the code is good and no error is uncleared (R404, R405, R419). -/
theorem State.functionReply_typewriter (h : s.typewriterConnected x = true) :
    s.functionReply x
      = (s.console.typewriterOn && !s.typewriter.uncleared && decide (s.answers.head? ≠ some .parity)) := by
  have hparity : s.takeAnswer.1 = .parity ↔ s.answers.head? = some .parity := State.takeAnswer_eq_iff (by decide)
  simp [State.functionReply, State.conn_of_typewriterConnected h, h, hparity]

theorem State.function_unconnected (hconn : (s.channel x).conn = none) : s.function x c = s := by
  simp [State.function, hconn]

/-- A typewriter that is switched off sees no code (R404, log 37). -/
theorem State.function_off (h : s.typewriterConnected x = true) (hoff : s.console.typewriterOn = false) :
    s.function x c = s.takeAnswer.2 := by
  simp [State.function, State.conn_of_typewriterConnected h, h, hoff]

/-- A code with bad parity, sent to an equipment that is on (R419 case 1). -/
theorem State.function_parity (hconn : (s.channel x).conn ≠ none)
    (hon : s.typewriterConnected x = false ∨ s.console.typewriterOn = true)
    (hparity : s.answers.head? = some .parity) : s.function x c = s.takeAnswer.2.functionParity x := by
  have hbad : s.takeAnswer.1 = .parity := (State.takeAnswer_eq_iff (by decide)).2 hparity
  rcases hon with h | h
  · simp [State.function, hconn, hbad, h]
  · simp [State.function, hconn, hbad, h]

/-- A good code that is no business of the typewriter, or that it does not take (R387, R419). -/
theorem State.function_untaken (hconn : (s.channel x).conn ≠ none) (hparity : s.answers.head? ≠ some .parity)
    (h : s.typewriterConnected x = false ∨ s.typewriter.uncleared = true) : s.function x c = s.takeAnswer.2 := by
  have hgood : s.takeAnswer.1 ≠ .parity := mt (State.takeAnswer_eq_iff (by decide)).1 hparity
  rcases h with h | h
  · simp [State.function, hconn, hgood, h]
  · simp [State.function, hconn, hgood, h]

/-- A good code to a typewriter that is on and has no error uncleared (R405). -/
theorem State.function_performed (h : s.typewriterConnected x = true) (hon : s.console.typewriterOn = true)
    (hparity : s.answers.head? ≠ some .parity) (hclear : s.typewriter.uncleared = false) :
    s.function x c = s.takeAnswer.2.typewriterFunction c := by
  have hgood : s.takeAnswer.1 ≠ .parity := mt (State.takeAnswer_eq_iff (by decide)).1 hparity
  simp [State.function, State.conn_of_typewriterConnected h, h, hon, hgood, hclear]

/-- Bit 0 of a code selects the interrupt, where bit 1 does not clear the selection too (R405). -/
theorem Typewriter.bit0_and_selects (t : Typewriter) (c : BitVec 12) (free : Bool) :
    (c.getLsbD 0 && t.selects c free) = (c.getLsbD 0 && (!c.getLsbD 1 || free)) := by
  unfold Typewriter.selects
  cases c.getLsbD 0 <;> cases c.getLsbD 1 <;> simp

theorem execExtf_replied (hx : s.CanUse x) (hidle : (s.channel x).active = false) (hreply : s.functionReply x = true)
    (ht : s.function x c = t) : execExtf x c n s = .next t.advance := by
  rw [execExtf, State.onIo_obeyed hx, hidle, hreply, ht]
  rfl

theorem execExtf_rejected (hx : s.CanUse x) (hidle : (s.channel x).active = false) (hreply : s.functionReply x = false)
    (hin : s.outOfBounds n = false) (ht : s.function x c = t) (hjump : t.CanJump n) :
    execExtf x c n s = .next (t.land n .upper) := by
  rw [execExtf, State.onIo_obeyed hx, hidle, hreply, hin, ht, ← State.rejectJump_lands hjump]
  rfl

/-- Nothing but the answer is used up by a reject out of bounds (R74, log 18). -/
theorem execExtf_faulted (hx : s.CanUse x) (hidle : (s.channel x).active = false) (hreply : s.functionReply x = false)
    (hconn : (s.channel x).conn ≠ none) (hout : s.outOfBounds n = true) (hquiet : s.Undisturbed) :
    execExtf x c n s = .next s.takeAnswer.2.faulted := by
  obtain ⟨hslots, hparity⟩ := hquiet
  rw [execExtf_outOfBounds hx hout hidle hreply, State.functionSent_connected hconn,
    s.takeAnswer.2.boundsFault_undisturbed hslots hparity]

end

/-- Settles O48: the busy channel, the one with nothing connected, another equipment and the typewriter; each by its
reply and by what the code leaves. -/
theorem externalFunction : Obligations.ExternalFunction := by
  rintro s x c n sent hx rfl
  refine ⟨fun hactive hjump => State.onIo_busy hx hactive hjump _, fun hidle hconn hjump => ?_,
    fun hidle hconn hother => ?_, fun hidle htw => ?_⟩
  · exact execExtf_rejected hx hidle (State.functionReply_unconnected hconn) hjump.1
      (State.function_unconnected hconn) hjump
  · have hreply := State.functionReply_other hconn hother
    refine ⟨fun h => ?_, fun h hgood hjump => ?_, fun hbad hjump => ?_, fun h hout hquiet => ?_⟩
    · exact execExtf_replied hx hidle (hreply.trans (decide_eq_true h))
        (State.function_untaken hconn (by simp [h]) (.inl hother))
    · exact execExtf_rejected hx hidle (hreply.trans (decide_eq_false h)) hjump.1
        (State.function_untaken hconn hgood (.inl hother)) hjump
    · refine execExtf_rejected hx hidle (hreply.trans (by simp [hbad])) hjump.1
        ((State.function_parity hconn (.inl hother) hbad).trans ?_) hjump
      have hkept : s.takeAnswer.2.typewriterConnected x = false := hother
      rw [State.functionParity, hkept, Bool.or_false]
      rfl
    · exact execExtf_faulted hx hidle (hreply.trans (decide_eq_false h)) hconn hout hquiet
  · have hconn := State.conn_of_typewriterConnected htw
    have hreply := State.functionReply_typewriter htw
    refine ⟨fun hoff hjump => ?_, fun hon hbad hjump => ?_, fun hon hgood hlocked hjump => ?_,
      fun hon hgood hclear => ?_, fun hno hout hquiet => ?_⟩
    · exact execExtf_rejected hx hidle (hreply.trans (by simp [hoff])) hjump.1 (State.function_off htw hoff) hjump
    · refine execExtf_rejected hx hidle (hreply.trans (by simp [hbad])) hjump.1
        ((State.function_parity hconn (.inr hon) hbad).trans ?_) hjump
      have hkept : s.takeAnswer.2.typewriterConnected x = true := htw
      rw [State.functionParity, hkept, Bool.or_true]
      rfl
    · exact execExtf_rejected hx hidle (hreply.trans (by simp [hlocked])) hjump.1
        (State.function_untaken hconn hgood (.inr hlocked)) hjump
    · refine ⟨Config.typewriterBothSelect s.draws, Config.typewriterLateSignal s.draws, ?_⟩
      refine execExtf_replied hx hidle (hreply.trans (by simp [hon, hclear, hgood]))
        ((State.function_performed htw hon hgood hclear).trans ?_)
      rw [State.typewriterFunction, Typewriter.function, Typewriter.bit0_and_selects]
      rfl
    · refine execExtf_faulted hx hidle (hreply.trans ?_) hconn hout hquiet
      rcases hno with h | h | h
      · simp [h]
      · simp [h]
      · simp [h]

/-! ## BEGR and BEGW -/

section
variable (s : State) (x : BitVec 2) (w : Word)

theorem State.beginOperation_noCount (d : Direction) (hw : bits w 24 15 = 0) :
    s.beginOperation x d w = s.setChannel x { s.channel x with addr := bits w 0 15, count := 0 } := by
  rw [State.beginOperation, if_pos hw, Channel.begin, if_pos hw]

/-- Whether the connected typewriter takes part is settled when the operation begins (R419). -/
theorem State.admitTypewriter_eq : s.admitTypewriter x = { s with
    typewriter := { s.typewriter with
      opLocked := if s.typewriterConnected x then s.typewriter.uncleared else s.typewriter.opLocked } } := by
  unfold State.admitTypewriter
  cases s.typewriterConnected x
  · rfl
  · rfl

/-- A channel that begins an operation on the control word w (R388, R389, R393). -/
def State.begun (d : Direction) : State :=
  { s.setChannel x { s.channel x with
      addr := bits w 0 15, count := bits w 24 15, dir := d, active := true, assembly := 0, held := 0
      reverse := false, stepped := false, halted := false } with
    typewriter := { s.typewriter with
      opLocked := if s.typewriterConnected x then s.typewriter.uncleared else s.typewriter.opLocked } }

theorem State.typewriterConnected_setChannel {c : Channel} (hc : c.conn = (s.channel x).conn) :
    (s.setChannel x c).typewriterConnected x = s.typewriterConnected x := by
  rw [State.typewriterConnected, State.channel_setChannel, hc]
  rfl

theorem State.beginOperation_count (d : Direction) (hw : bits w 24 15 ≠ 0) :
    s.beginOperation x d w = (s.begun x w d).lowerCase x := by
  rw [State.beginOperation, if_neg hw, Channel.begin, if_neg hw, State.admitTypewriter_eq,
    State.typewriterConnected_setChannel]
  · rfl
  · rfl

theorem State.channel_begun (d : Direction) : (s.begun x w d).channel x = { s.channel x with
    addr := bits w 0 15, count := bits w 24 15, dir := d, active := true, assembly := 0, held := 0
    reverse := false, stepped := false, halted := false } :=
  s.channel_setChannel x _

theorem State.lowerCase_read {t : State} (hdir : (t.channel x).dir = .read) : t.lowerCase x = t := by
  rw [State.lowerCase, hdir]
  exact if_neg (by simp)

/-- A typewriter takes part in the operation begun unless an error is uncleared (R419). -/
theorem State.typewriterWorks_begun (d : Direction) : (s.begun x w d).typewriterWorks x
    = (s.typewriterConnected x && s.console.typewriterOn && !s.typewriter.uncleared) := by
  have hconn : (s.begun x w d).typewriterConnected x = s.typewriterConnected x :=
    s.typewriterConnected_setChannel x rfl
  have hlock : (s.begun x w d).typewriter.opLocked
      = if s.typewriterConnected x then s.typewriter.uncleared else s.typewriter.opLocked := rfl
  have hon : (s.begun x w d).console = s.console := rfl
  rw [State.typewriterWorks, hconn, hlock, hon]
  cases s.typewriterConnected x
  · rfl
  · rfl

end

section
variable {s : State} {x : BitVec 2} {m n : Addr} {w : Word}

/-- The control word goes to an idle channel (R388, R389). -/
theorem exec_begin (hx : s.CanUse x) (hidle : (s.channel x).active = false) (hq : s.Quiet) (hword : s.hasWord m = true)
    (d : Direction) (r : Result) :
    s.onIo x (if (s.channel x).active then r
      else s.readOperand m fun t w => .next (t.beginOperation x d w).advance)
      = .next (s.beginOperation x d (Memory.word s.memory m)).advance := by
  rw [State.onIo_obeyed hx, hidle, if_neg Bool.false_ne_true, s.readOperand_quiet m _ hq hword]

end

/-- Settles O49: busy, no count, and the operation begun; a read leaves the typewriter's case alone. -/
theorem readAndWrite : Obligations.ReadAndWrite := by
  refine fun s x m n w hx => ⟨fun hactive hjump => ⟨?_, ?_⟩, fun hidle hq hword hw => ?_⟩
  · exact State.onIo_busy hx hactive hjump _
  · exact State.onIo_busy hx hactive hjump _
  · subst hw
    have hread : exec (.begr x m n) s = _ := exec_begin hx hidle hq hword .read (s.rejectJump n)
    have hwrite : exec (.begw x m n) s = _ := exec_begin hx hidle hq hword .write (s.rejectJump n)
    rw [hread, hwrite]
    refine ⟨fun hcount => ?_, fun hcount => ⟨?_, ?_⟩⟩
    · rw [s.beginOperation_noCount x _ .read hcount, s.beginOperation_noCount x _ .write hcount]
      exact ⟨rfl, rfl⟩
    · rw [s.beginOperation_count x _ .read hcount, State.lowerCase_read x (by rw [s.channel_begun])]
      rfl
    · rw [s.beginOperation_count x _ .write hcount, State.lowerCase, s.typewriterWorks_begun, s.channel_begun]
      cases s.typewriterConnected x && s.console.typewriterOn && !s.typewriter.uncleared
      · simp only [Bool.not_false, Bool.and_true, Bool.and_false, Bool.or_false]
        rfl
      · simp only [Bool.not_true, Bool.and_true, Bool.and_false]
        rfl

/-! ## COPY, CLCH and CCWD -/

/-- A field over a field over zeros, each with zeros above it, is the word of their digits. -/
theorem setBits_setBits_zero {k k' g g' : Nat} (u : BitVec k) (v : BitVec k') (hfit : g' + k' + g + k = 48) :
    setBits (setBits (0 : Word) 0 u) (g + k) v = ((0 : BitVec g') ++ v ++ (0 : BitVec g) ++ u).cast hfit := by
  apply BitVec.eq_of_getLsbD_eq
  intro i hi
  have hzero : ∀ n j, (0 : BitVec n).getLsbD j = false := fun _ _ => BitVec.getLsbD_zero
  rw [getLsbD_setBits _ _ _ _ hi, getLsbD_setBits _ _ _ _ hi]
  simp only [BitVec.getLsbD_cast, BitVec.getLsbD_append, hzero]
  grind

/-- COPY: address and count to A, status and lines to Q (R390). -/
theorem exec_copy {s : State} {x : BitVec 2} (hx : s.CanUse x) : exec (.copy x) s = .next ({ s with
    a := (0 : BitVec 9) ++ (s.channel x).count ++ (0 : BitVec 9) ++ (s.channel x).addr
    q := (0 : BitVec 16) ++ s.lines x ++ (0 : BitVec 12) ++ s.statusLines x } : State).advance := by
  have ha := setBits_setBits_zero (g := 9) (g' := 9) (s.channel x).addr (s.channel x).count rfl
  have hq := setBits_setBits_zero (g := 12) (g' := 16) (s.statusLines x) (s.lines x) rfl
  rw [exec, execCopy, State.onIo_obeyed hx, ha, hq]
  rfl

theorem exec_clch {s : State} {x : BitVec 2} (hx : s.CanUse x) :
    exec (.clch x) s = .next (s.clearChannel x).advance :=
  State.onIo_obeyed hx _

/-- A free value of one bit of IR (U17). -/
theorem State.freeIr_eq (s : State) {i : Nat} (hi : i < 48) :
    ∃ ff d, s.freeIr i = { s with irff := ff, draws := d } ∧ ∀ j, j ≠ i → ff.getLsbD j = s.irff.getLsbD j := by
  unfold State.freeIr
  split
  · refine ⟨_, _, rfl, fun j hj => ?_⟩
    exact (getLsbD_or_bit48 s.irff j hi).trans (by rw [decide_eq_false hj, Bool.false_or])
  · refine ⟨_, _, rfl, fun j hj => ?_⟩
    exact (getLsbD_and_not_bit48 s.irff j hi).trans (by rw [decide_eq_false hj, Bool.not_false, Bool.true_and])

/-- What CLCH does before it clears the channel (R391, R400): bit 10 + x is free where the channel was active. -/
theorem State.clearChannel_eq (s : State) (x : BitVec 2) :
    ∃ ff d, s.clearChannel x = ({ s with irff := ff, draws := d } : State).wipeChannel x
      ∧ (∀ j, j ≠ 10 + x.toNat → ff.getLsbD j = s.irff.getLsbD j)
      ∧ ((s.channel x).active = false → ff = s.irff ∧ d = s.draws) := by
  have hbit : 10 + x.toNat < 48 := by have := x.isLt; omega
  unfold State.clearChannel
  cases hactive : (s.channel x).active
  · exact ⟨s.irff, s.draws, rfl, fun _ _ => rfl, fun _ => ⟨rfl, rfl⟩⟩
  · obtain ⟨ff, d, hfree, hkept⟩ := s.freeIr_eq hbit
    rw [if_pos rfl, hfree]
    exact ⟨ff, d, rfl, hkept, fun h => Bool.noConfusion h⟩

/-- Settles O50: COPY is an equation; CLCH is the clear of a channel after the free bit. -/
theorem copyAndClear : Obligations.CopyAndClear := by
  refine fun s x hx => ⟨exec_copy hx, ?_⟩
  obtain ⟨ff, d, hclear, hkept, hidle⟩ := s.clearChannel_eq x
  refine ⟨ff, d, ?_, hkept, hidle⟩
  rw [exec_clch hx, hclear, State.wipeChannel_eq]
  rfl

section
variable {s : State} {x : BitVec 2} {n : Addr}

/-- A turn of a program that waits on CCWD does nothing (R392). -/
theorem step_waiting (hmoves : s.moves = []) (hrestart : s.restartRequest = false) (hwait : s.ccwdWait = some x) :
    step s = .next s := by
  simp [step, State.nextMove, State.program, hmoves, hrestart, hwait]

theorem execCcwd_rejected (hx : s.CanUse x) (hreject : bits s.a 24 15 = 0 ∨ (s.channel x).active = false)
    (hjump : s.CanJump n) : execCcwd x n s = .next (s.land n .upper) := by
  have hcond : (decide (bits s.a 24 15 = 0) || !(s.channel x).active) = true := by
    rw [Bool.or_eq_true, decide_eq_true_iff, Bool.not_eq_true']
    exact hreject
  rw [execCcwd, State.onIo_obeyed hx, if_pos hcond, State.rejectJump_lands hjump]

theorem execCcwd_waits (hx : s.CanUse x) (hcount : bits s.a 24 15 ≠ 0) (hactive : (s.channel x).active = true) :
    execCcwd x n s = .next { s with slsStopped := false, ccwdWait := some x } := by
  rw [execCcwd, State.onIo_obeyed hx, decide_eq_false hcount, hactive]
  rfl

end

/-- Settles O51: reject, wait, a turn that waits, and the chain at the end of the block. -/
theorem changeControlWord : Obligations.ChangeControlWord := by
  intro s x n hx
  exact ⟨execCcwd_rejected hx, execCcwd_waits hx, step_waiting, fun hwait => if_pos hwait⟩

end Sys2Proof.Machine

/-! The channels as agents (49_io R388 to R407, R417, R419): the end of a block, words and bytes in, words and bytes out,
and End of Record. What follows a reference is said of a state whose channel x is c. -/

namespace Sys2Proof.Machine

/-! ## The end of a block -/

section
variable {s : State} {x : BitVec 2} {c : Channel}

/-- A channel that moves no output word leaves the typewriter's case alone (R406). -/
theorem State.lowerCase_input (hdir : c.dir = .read) : (s.setChannel x c).lowerCase x = s.setChannel x c :=
  State.lowerCase_read x (by rw [State.channel_setChannel, hdir])

theorem State.lowerCase_other (hother : s.typewriterConnected x = false) (hc : c.conn = (s.channel x).conn) :
    (s.setChannel x c).lowerCase x = s.setChannel x c := by
  rw [State.lowerCase, State.typewriterWorks, s.typewriterConnected_setChannel x hc, hother]
  exact if_neg (by simp)

/-- A count that is not used up, or a channel that has stopped, goes on as it is (R394, R419). -/
theorem State.endIfDone_goes (h : c.count ≠ 0 ∨ c.halted = true) : (s.setChannel x c).endIfDone x = s.setChannel x c := by
  rw [State.endIfDone, State.channel_setChannel]
  rcases h with h | h
  · rw [decide_eq_false h]
    rfl
  · rw [h]
    exact if_neg (by simp)

theorem State.endIfDone_ends (hcount : c.count = 0) (hrunning : c.halted = false) :
    (s.setChannel x c).endIfDone x = (s.setChannel x c).endOfBlock x := by
  rw [State.endIfDone, State.channel_setChannel, hcount, hrunning]
  rfl

/-- A CCWD that waits chains (R392). -/
theorem State.endOfBlock_chains (hwait : s.ccwdWait = some x) : (s.setChannel x c).endOfBlock x
    = (s.setChannel x { c with addr := bits s.a 0 15, count := bits s.a 24 15 }).endWait := by
  rw [State.endOfBlock, if_pos (by exact hwait), State.channel_setChannel, State.setChannel_setChannel]
  rfl

theorem State.deactivate_setChannel (hlower : (s.setChannel x c).lowerCase x = s.setChannel x c) :
    (s.setChannel x c).deactivate x
      = ((s.setChannel x { c with active := false }).setIr (10 + x.toNat)).wentInactive x := by
  rw [State.deactivate, hlower, State.channel_setChannel, State.setChannel_setChannel]

/-- With no CCWD that waits on it the channel becomes inactive (R394, R400). -/
theorem State.endOfBlock_inactive (hwait : s.ccwdWait ≠ some x)
    (hlower : (s.setChannel x c).lowerCase x = s.setChannel x c) : (s.setChannel x c).endOfBlock x
      = ((s.setChannel x { c with active := false }).setIr (10 + x.toNat)).wentInactive x := by
  rw [State.endOfBlock, if_neg (by exact hwait), State.deactivate_setChannel hlower]

/-- Nothing waits on the channel (R392, R402). -/
theorem State.wentInactive_unwaited {t : State} (hwait : t.ccwdWait ≠ some x) (hload : t.autoLoad ≠ some x) :
    t.wentInactive x = t := by
  rw [State.wentInactive, if_neg hwait, if_neg hload]

/-- An Auto-Load that waits on the channel starts the computer (R402). -/
theorem State.wentInactive_autoLoad {t : State} (hwait : t.ccwdWait ≠ some x) (hload : t.autoLoad = some x) :
    t.wentInactive x = t.autoLoadGo := by
  rw [State.wentInactive, if_neg hwait, if_pos hload]

end

/-! ## An input word -/

theorem count_sub_one_eq_zero (v : Addr) : v - 1 = 0 ↔ v = 1 := BitVec.sub_eq_iff_eq_add

section
variable {s : State} {x : BitVec 2} {c : Channel} {w : Word}

/-- The word goes to the channel's address, and the control word is stepped (R394). -/
theorem State.channelStore_setChannel : (s.setChannel x c).channelStore x w
    = ({ s with memory := Memory.setWord s.memory c.addr w } : State).setChannel x
        { c.step with assembly := 0, held := 0 } := by
  rw [State.channelStore, State.channel_setChannel]
  exact State.setChannel_setChannel { s with memory := Memory.setWord s.memory c.addr w } x c _

theorem State.inputWord_stores (hword : s.hasWord c.addr = true) : (s.setChannel x c).inputWord x w
    = .next ((({ s with memory := Memory.setWord s.memory c.addr w } : State).setChannel x
        { c.step with assembly := 0, held := 0 }).endIfDone x) := by
  rw [State.inputWord, State.channel_setChannel, if_pos (by exact hword), State.channelStore_setChannel]

/-- An address that the storage lacks (R64, D4). -/
theorem State.inputWord_absent (hword : s.hasWord c.addr = false) :
    (s.setChannel x c).inputWord x w = .fault .noSuchStorage := by
  have habsent : ¬ (s.setChannel x c).hasWord c.addr = true := fun h => Bool.false_ne_true (hword.symm.trans h)
  rw [State.inputWord, State.channel_setChannel, if_neg habsent]

/-- A word that is not the last of its block, or comes to a channel that stops (R394, R419). -/
theorem State.inputWord_goes (hword : s.hasWord c.addr = true) (h : c.count ≠ 1 ∨ c.halted = true) :
    (s.setChannel x c).inputWord x w = .next (({ s with
      memory := Memory.setWord s.memory c.addr w } : State).setChannel x { c with
        addr := c.addr + 1, count := c.count - 1, assembly := 0, held := 0 }) := by
  rw [State.inputWord_stores hword, State.endIfDone_goes]
  · rfl
  · exact h.imp_left (mt (count_sub_one_eq_zero c.count).1)

/-- The last word of a block, with no CCWD that waits (R394, R400). -/
theorem State.inputWord_ends (hdir : c.dir = .read) (hword : s.hasWord c.addr = true) (hcount : c.count = 1)
    (hrunning : c.halted = false) (hwait : s.ccwdWait ≠ some x) :
    (s.setChannel x c).inputWord x w = .next (((({ s with
      memory := Memory.setWord s.memory c.addr w } : State).setChannel x { c with
        addr := c.addr + 1, count := 0, assembly := 0, held := 0, active := false }).setIr
          (10 + x.toNat)).wentInactive x) := by
  have hdone : c.count - 1 = 0 := (count_sub_one_eq_zero c.count).2 hcount
  rw [State.inputWord_stores hword, State.endIfDone_ends (by exact hdone) (by exact hrunning),
    State.endOfBlock_inactive (by exact hwait) (State.lowerCase_input (by exact hdir)), Channel.step, hdone]

/-- The last word of a block, with a CCWD that waits (R392, R394). -/
theorem State.inputWord_chains (hword : s.hasWord c.addr = true) (hcount : c.count = 1)
    (hrunning : c.halted = false) (hwait : s.ccwdWait = some x) :
    (s.setChannel x c).inputWord x w = .next (({ s with
      memory := Memory.setWord s.memory c.addr w } : State).setChannel x { c with
        addr := bits s.a 0 15, count := bits s.a 24 15, assembly := 0, held := 0 }).endWait := by
  have hdone : c.count - 1 = 0 := (count_sub_one_eq_zero c.count).2 hcount
  rw [State.inputWord_stores hword, State.endIfDone_ends (by exact hdone) (by exact hrunning),
    State.endOfBlock_chains (by exact hwait)]
  rfl

end

/-! ## Input bytes -/

section
variable {s : State} {x : BitVec 2} {byte : BitVec 12} {reversed bad halt : Bool}

/-- With nothing connected no byte and no End of Record comes, and no byte is taken (R388, R391). -/
theorem State.reading_unconnected (hconn : (s.channel x).conn = none) : s.reading x = false := by
  simp [State.reading, hconn]

theorem State.moving_eq_true {d : Direction} (hinstalled : s.installed x = true)
    (hactive : (s.channel x).active = true) (hdir : (s.channel x).dir = d)
    (hrunning : (s.channel x).halted = false) : s.moving x d = true := by
  simp [State.moving, hinstalled, hactive, hdir, hrunning]

theorem State.reading_connected (hmoving : s.moving x .read = true) (hconn : (s.channel x).conn ≠ none)
    (hother : s.typewriterConnected x = false) : s.reading x = true := by
  simp [State.reading, hmoving, Option.isSome_iff_ne_none.2 hconn, hother]

/-- One of the first three bytes of a word (R394). -/
theorem State.byteIn_assembles (hreading : s.reading x = true) (hheld : (s.channel x).held.toNat < 3) :
    s.byteIn x byte reversed bad halt = .next (s.setChannel x (s.withByte x byte reversed bad halt)) := by
  have hfew : (s.withByte x byte reversed bad halt).held.toNat < 4 := by
    show ((s.channel x).held + 1).toNat < 4
    bv_omega
  rw [State.byteIn, if_pos hreading, if_pos hfew]

/-- The fourth byte of a word (R394). -/
theorem State.byteIn_completes (hreading : s.reading x = true) (hheld : (s.channel x).held = 3) :
    s.byteIn x byte reversed bad halt = (s.setChannel x (s.withByte x byte reversed bad halt)).inputWord x
      (s.withByte x byte reversed bad halt).assembly := by
  have hfull : ¬ (s.withByte x byte reversed bad halt).held.toNat < 4 := by
    show ¬ ((s.channel x).held + 1).toNat < 4
    rw [hheld]
    decide
  rw [State.byteIn, if_pos hreading, if_neg hfull]

/-- A key of the typewriter in a Read, without a parity error, gives its code as one word (R407). -/
theorem State.keyEvent_reads {code : BitVec 6} (hx : x = s.config.typewriterChannel)
    (hworks : s.typewriterWorks x = true) (hmoving : s.moving x .read = true)
    (hrunning : (s.channel x).halted = false) :
    s.keyEvent code false false
      = (({ s with typewriter := s.typewriter.strike code } : State).setChannel x (s.channel x)).inputWord x
          (code.setWidth 48) := by
  subst hx
  have hon : s.console.typewriterOn = true := by
    simp only [State.typewriterWorks, Bool.and_eq_true] at hworks
    exact hworks.1.2
  have hkey : s.keyEvent code false false = ({ s with typewriter := s.typewriter.strike code } : State).keyWord
      s.config.typewriterChannel code false false := by
    simp [State.keyEvent, hon, hworks, hmoving]
  have hchannel : { s.channel s.config.typewriterChannel with halted := false }
      = s.channel s.config.typewriterChannel := by
    rw [← hrunning]
  rw [hkey, State.keyWord, Bool.or_false, Bool.or_false]
  exact congrArg (fun c => (({ s with typewriter := s.typewriter.strike code } : State).setChannel
    s.config.typewriterChannel c).inputWord s.config.typewriterChannel (code.setWidth 48)) hchannel

end

/-- Settles O52: nothing connected, a byte of a word that is not complete, and the word that the last byte or a key
completes, which goes on, ends its block or chains. -/
theorem channelInput : Obligations.ChannelInput := by
  intro s x byte reversed bad halt r h w c hinstalled hactive hdir hrunning hr hh hw hc
  have hmoving := State.moving_eq_true hinstalled hactive hdir hrunning
  refine ⟨fun hconn => ?_, fun hconn hother => ?_, fun hx hworks hword hcount code => ?_,
    fun hx hworks hword hcount code => ?_⟩
  · rw [Async.perform, State.byteIn, State.reading_unconnected hconn]
    rfl
  · have hreading := State.reading_connected hmoving hconn hother
    have hbyte : s.withByte x byte reversed bad halt = { c with assembly := w, held := (s.channel x).held + 1 } := by
      subst hr hh hw hc
      rfl
    refine ⟨fun hheld => ?_, fun hheld hword => ?_, fun hheld hword => ?_⟩
    · exact (State.byteIn_assembles hreading hheld).trans (by rw [hbyte])
    · have hrun : (Async.byteIn x byte reversed bad halt).perform s = _ := State.byteIn_completes hreading hheld
      rw [hbyte] at hrun
      subst hc
      refine ⟨fun hmore => ?_, fun hcount hgo hwait hload => ?_, fun hcount hgo hwait hload => ?_,
        fun hcount hgo hwait => ?_⟩
      · exact hrun.trans (State.inputWord_goes hword hmore)
      · exact hrun.trans ((State.inputWord_ends (by exact hdir) (by exact hword) (by exact hcount) hgo hwait).trans
          (congrArg Host.Outcome.next (State.wentInactive_unwaited hwait hload)))
      · exact hrun.trans ((State.inputWord_ends (by exact hdir) (by exact hword) (by exact hcount) hgo hwait).trans
          (congrArg Host.Outcome.next (State.wentInactive_autoLoad hwait hload)))
      · exact hrun.trans (State.inputWord_chains hword hcount hgo hwait)
    · have hrun : (Async.byteIn x byte reversed bad halt).perform s = _ := State.byteIn_completes hreading hheld
      rw [hbyte] at hrun
      subst hc
      exact hrun.trans (State.inputWord_absent hword)
  · have hgoes := State.inputWord_goes (x := x) (s := { s with typewriter := s.typewriter.strike code })
      (c := s.channel x) (w := code.setWidth 48) hword (.inl hcount)
    exact (State.keyEvent_reads hx hworks hmoving hrunning).trans hgoes
  · have hends := State.inputWord_ends (x := x) (s := { s with typewriter := s.typewriter.strike code })
      (c := s.channel x) (w := code.setWidth 48) hdir hword hcount hrunning
    have hchains := State.inputWord_chains (x := x) (s := { s with typewriter := s.typewriter.strike code })
      (c := s.channel x) (w := code.setWidth 48) hword hcount hrunning
    have hrun := State.keyEvent_reads (code := code) hx hworks hmoving hrunning
    refine ⟨fun hwait hload => ?_, fun hwait hload => ?_, fun hwait => ?_⟩
    · exact hrun.trans ((hends hwait).trans
        (congrArg Host.Outcome.next (State.wentInactive_unwaited hwait hload)))
    · exact hrun.trans ((hends hwait).trans
        (congrArg Host.Outcome.next (State.wentInactive_autoLoad hwait hload)))
    · exact hrun.trans (hchains hwait)

end Sys2Proof.Machine

/-! Output words and bytes, and End of Record (49_io R392 to R407, R417). -/

namespace Sys2Proof.Machine

/-! ## Output words -/

theorem State.presentWord_eq (s : State) (x : BitVec 2) : s.presentWord x
    = { s with typewriter := { s.typewriter with busy := s.typewriter.busy || s.typewriterWorks x } } := by
  rw [State.presentWord]
  cases s.typewriterWorks x
  · rw [Bool.or_false]
    rfl
  · rw [Bool.or_true]
    rfl

/-- A word is read, and its registers are stepped now or with its last byte (R394, D33). -/
theorem State.wordOut_reads {s : State} {x : BitVec 2} (stepNow : Bool) (hmoving : s.moving x .write = true)
    (hheld : (s.channel x).held = 0) (hcount : (s.channel x).count ≠ 0)
    (hword : s.hasWord (s.channel x).addr = true) :
    s.wordOut x stepNow = .next (({ s.setIrIf 45 (decide ((s.channel x).addr ∈ s.badParity)) with
      typewriter := { s.typewriter with busy := s.typewriter.busy || s.typewriterWorks x } } : State).setChannel x
        { s.channel x with
          assembly := Memory.word s.memory (s.channel x).addr, held := 4, stepped := stepNow
          addr := if stepNow then (s.channel x).addr + 1 else (s.channel x).addr
          count := if stepNow then (s.channel x).count - 1 else (s.channel x).count }) := by
  have hready : (s.moving x .write && decide ((s.channel x).held = 0) && decide ((s.channel x).count ≠ 0)) = true := by
    simpa [hmoving, hheld] using hcount
  rw [State.wordOut, if_pos hready, if_pos hword, State.presentWord_eq]
  cases stepNow <;> cases decide ((s.channel x).addr ∈ s.badParity) <;> rfl

/-! ## Output bytes -/

section
variable {s : State} {x : BitVec 2} {bad halt : Bool}

theorem State.writing_unconnected (hconn : (s.channel x).conn = none) : s.writing x = false := by
  simp [State.writing, hconn]

theorem State.writing_other (hmoving : s.moving x .write = true) (hconn : (s.channel x).conn ≠ none)
    (hother : s.typewriterConnected x = false) : s.writing x = true := by
  simp [State.writing, hmoving, Option.isSome_iff_ne_none.2 hconn, hother]

theorem State.writing_typewriter (hmoving : s.moving x .write = true) (hworks : s.typewriterWorks x = true) :
    s.writing x = true := by
  have hconn : (s.channel x).conn.isSome = true := by
    simp only [State.typewriterWorks, State.typewriterConnected, Bool.and_eq_true] at hworks
    grind
  simp [State.writing, hmoving, hworks, hconn]

theorem State.takeByte_other (byte : BitVec 12) (hother : s.typewriterConnected x = false) :
    s.takeByte x byte bad = s := by
  rw [State.takeByte, if_neg (by simp [hother])]

/-- The channel after an output byte, its registers stepped with the last byte unless they were before (D33). -/
theorem State.byteSent_eq : s.byteSent x bad halt = { s.channel x with
    held := (s.channel x).held - 1, parErr := (s.channel x).parErr || bad
    halted := bad && halt && s.selected (20 + x.toNat)
    addr := if (s.channel x).held = 1 ∧ (s.channel x).stepped = false then (s.channel x).addr + 1
      else (s.channel x).addr
    count := if (s.channel x).held = 1 ∧ (s.channel x).stepped = false then (s.channel x).count - 1
      else (s.channel x).count } := by
  by_cases hlast : (s.channel x).held = 1 ∧ (s.channel x).stepped = false
  · simp [State.byteSent, Channel.step, hlast]
  · have hstay : ((s.channel x).held = 1 && !(s.channel x).stepped) ≠ true := by simpa using hlast
    rw [State.byteSent, if_neg hstay, if_neg hlast, if_neg hlast]

/-- A byte that is not the last of its word (R394). -/
theorem State.byteOut_more (hwriting : s.writing x = true) (hheld : (s.channel x).held ≠ 0)
    (hmore : (s.channel x).held ≠ 1) : s.byteOut x bad halt
      = .next ((s.takeByte x (s.channel x).outByte bad).setChannel x (s.byteSent x bad halt)) := by
  rw [State.byteOut, if_pos (by simpa [hwriting] using hheld), if_neg hmore]

/-- The last byte of a word (R394). -/
theorem State.byteOut_last (hwriting : s.writing x = true) (hlast : (s.channel x).held = 1) : s.byteOut x bad halt
    = .next (((s.takeByte x (s.channel x).outByte bad).setChannel x (s.byteSent x bad halt)).endIfDone x) := by
  rw [State.byteOut, if_pos (by simp [hwriting, hlast]), if_pos hlast]

end

/-- A channel sends bits 47..36 of a word first (R70 item 3). -/
theorem outByte_positions (c : Channel) : (c.held = 4 → c.outByte = bits c.assembly 36 12)
    ∧ (c.held = 3 → c.outByte = bits c.assembly 24 12) ∧ (c.held = 2 → c.outByte = bits c.assembly 12 12)
    ∧ (c.held = 1 → c.outByte = bits c.assembly 0 12) := by
  refine ⟨fun h => ?_, fun h => ?_, fun h => ?_, fun h => ?_⟩ <;>
  · rw [Channel.outByte, h]
    rfl

/-! ## The typewriter's output -/

theorem Typewriter.output_carry (t : Typewriter) (code : BitVec 6) :
    (t.carry code false).output = t.output ++ [(code, typewriterGlyph t.upper code)] := by
  simp [Typewriter.carry, Typewriter.output]

/-- Both frames of a byte are typed, the upper one first (R406). -/
theorem Typewriter.output_typeByte {t : Typewriter} {byte : BitVec 12}
    {instead : Option (BitVec 6) × Option (BitVec 6)} (h : t.disturbed = false) :
    (t.typeByte byte false instead).output = t.output ++
      [(bits byte 6 6, typewriterGlyph t.upper (bits byte 6 6)),
        (bits byte 0 6, typewriterGlyph (t.carry (bits byte 6 6) false).upper (bits byte 0 6))] := by
  rw [Typewriter.typeByte, if_neg (by simp [h]), Typewriter.typeCode, Typewriter.typeCode, Typewriter.output_carry,
    Typewriter.output_carry, List.append_assoc]
  rfl

theorem State.output_lowerCase (s : State) (x : BitVec 2) :
    (s.lowerCase x).typewriter.output = s.typewriter.output := by
  rw [State.lowerCase]
  split <;> rfl

theorem State.output_endWait (s : State) : s.endWait.typewriter.output = s.typewriter.output := rfl

theorem State.output_wentInactive (s : State) (x : BitVec 2) :
    (s.wentInactive x).typewriter.output = s.typewriter.output := by
  rw [State.wentInactive]
  split
  · exact s.output_endWait
  · split <;> rfl

/-- The end of a block types nothing (R406). -/
theorem State.output_endIfDone (s : State) (x : BitVec 2) :
    (s.endIfDone x).typewriter.output = s.typewriter.output := by
  rw [State.endIfDone]
  split
  · rw [State.endOfBlock]
    split
    · rfl
    · rw [State.deactivate, State.output_wentInactive]
      exact s.output_lowerCase x
  · rfl

/-- The typewriter types the byte it takes (R406). -/
theorem State.byteOut_types {s : State} {x : BitVec 2} (hmoving : s.moving x .write = true)
    (hworks : s.typewriterWorks x = true) (hheld : (s.channel x).held ≠ 0) : ∃ t : State,
      s.byteOut x false false = .next t ∧ t.typewriter.output
        = (s.typewriter.typeByte (s.channel x).outByte false (Config.disturbedCodes s.draws)).output := by
  have hwriting := State.writing_typewriter hmoving hworks
  have hconnected : s.typewriterConnected x = true := by
    simp only [State.typewriterWorks, Bool.and_eq_true] at hworks
    exact hworks.1.1
  have htaken : (s.takeByte x (s.channel x).outByte false).typewriter
      = s.typewriter.typeByte (s.channel x).outByte false (Config.disturbedCodes s.draws) := by
    rw [State.takeByte, if_pos hconnected]
  by_cases hlast : (s.channel x).held = 1
  · refine ⟨_, State.byteOut_last hwriting hlast, ?_⟩
    rw [State.output_endIfDone, ← htaken]
    rfl
  · refine ⟨_, State.byteOut_more hwriting hheld hlast, ?_⟩
    rw [← htaken]
    rfl

/-! ## End of Record -/

/-- The first of the orders of U16 is the order that the bytes have. -/
theorem arrange_zero (w : Word) : arrange w 0 = w := by
  show bits w 36 12 ++ bits w 24 12 ++ bits w 12 12 ++ bits w 0 12 = w
  ext i hi
  simp only [bits, BitVec.getElem_append, BitVec.getElem_extractLsb']
  grind

section
variable {s : State} {x : BitVec 2} {w : Word}

/-- A word stored at the end of a record, after which the channel is inactive (R397). -/
theorem State.storeAndEnd_stores (hdir : (s.channel x).dir = .read)
    (hword : s.hasWord (s.channel x).addr = true) : s.storeAndEnd x w = .next (((({ s with
      memory := Memory.setWord s.memory (s.channel x).addr w } : State).setChannel x { s.channel x with
        addr := (s.channel x).addr + 1, count := (s.channel x).count - 1, assembly := 0, held := 0
        active := false }).setIr (10 + x.toNat)).wentInactive x) := by
  rw [State.storeAndEnd, if_pos hword, State.channelStore,
    State.deactivate_setChannel (State.lowerCase_input (by exact hdir))]
  rfl

theorem State.storeAndEnd_absent (hword : s.hasWord (s.channel x).addr = false) :
    s.storeAndEnd x w = .fault .noSuchStorage := by
  rw [State.storeAndEnd, if_neg (by simp [hword])]

/-- With no partial word the channel becomes inactive (R397). -/
theorem State.endOfRecord_empty (hreading : s.reading x = true) (hdir : (s.channel x).dir = .read)
    (hheld : (s.channel x).held = 0) : s.endOfRecord x
      = .next (((s.setChannel x { s.channel x with active := false }).setIr (10 + x.toNat)).wentInactive x) := by
  rw [State.endOfRecord, if_pos hreading, if_pos hheld, State.deactivate, State.lowerCase_read x hdir]

/-- A partial word that was not assembled in reverse keeps the order of its bytes (R397); of another it is open (U16). -/
theorem State.endOfRecord_partial (hreading : s.reading x = true) (hheld : (s.channel x).held ≠ 0) :
    ∃ n d : Nat, ((s.channel x).reverse = false → n = 0 ∧ d = s.draws) ∧ s.endOfRecord x
      = ({ s with draws := d } : State).storeAndEnd x (arrange (s.channel x).assembly n) := by
  rw [State.endOfRecord, if_pos hreading, if_neg hheld]
  by_cases hreverse : (s.channel x).reverse = true
  · rw [if_pos hreverse]
    exact ⟨s.drawWord.1.toNat, s.draws + 1, fun h => absurd hreverse (by simp [h]), rfl⟩
  · rw [if_neg hreverse]
    exact ⟨0, s.draws, fun _ => ⟨rfl, rfl⟩, by rw [arrange_zero]⟩

end

/-- Settles O53: a word out, nothing connected, the bytes of a word and the end of its block, what becoming inactive
does, the place of each byte, what the typewriter types, End of Record, and its switch on the typewriter. -/
theorem channelOutputAndEnd : Obligations.ChannelOutputAndEnd := by
  intro s x hinstalled hactive hrunning
  refine ⟨fun stepNow hdir hheld hcount hword => ?_, fun hconn bad halt => ⟨?_, ?_⟩,
    fun hdir hconn hother bad halt h c hh hc => ?_, fun e => rfl, outByte_positions,
    fun hdir hworks hheld hclear => ?_, fun hdir hconn hother => ?_, fun hx hdir hworks hword => ⟨fun hlive => ?_,
      fun hactive hmaintenance => ?_⟩⟩
  · exact State.wordOut_reads stepNow (State.moving_eq_true hinstalled hactive hdir hrunning) hheld hcount hword
  · rw [Async.perform, State.byteOut, State.writing_unconnected hconn]
    rfl
  · rw [Async.perform, State.endOfRecord, State.reading_unconnected hconn]
    rfl
  · have hwriting := State.writing_other (State.moving_eq_true hinstalled hactive hdir hrunning) hconn hother
    have hsent : s.byteSent x bad halt = c := by
      rw [State.byteSent_eq, hc, hh]
    have hconnKept : c.conn = (s.channel x).conn := by rw [hc]
    have hhalted : c.halted = h := by rw [hc]
    have hlast (hheld : (s.channel x).held = 1) : s.byteOut x bad halt = .next ((s.setChannel x c).endIfDone x) := by
      rw [State.byteOut_last hwriting hheld, State.takeByte_other _ hother, hsent]
    refine ⟨fun hgoes => ?_, fun hheld hcount hgo hwait => ?_, fun hheld hcount hgo hwait => ?_⟩
    · rcases hgoes with hheld | ⟨hheld, hmore⟩
      · have hheld : (s.channel x).held ≠ 0 ∧ (s.channel x).held ≠ 1 := by
          revert hheld
          generalize (s.channel x).held = k
          revert k
          decide
        exact (State.byteOut_more hwriting hheld.1 hheld.2).trans (by rw [State.takeByte_other _ hother, hsent])
      · exact (hlast hheld).trans (by rw [State.endIfDone_goes (hmore.imp_right hhalted.trans)])
    · exact (hlast hheld).trans (by rw [State.endIfDone_ends hcount (hhalted.trans hgo),
        State.endOfBlock_inactive hwait (State.lowerCase_other hother hconnKept)])
    · exact (hlast hheld).trans (by rw [State.endIfDone_ends hcount (hhalted.trans hgo),
        State.endOfBlock_chains hwait])
  · obtain ⟨t, hrun, houtput⟩ :=
      State.byteOut_types (State.moving_eq_true hinstalled hactive hdir hrunning) hworks hheld
    exact ⟨t, _, hrun, rfl, houtput.trans (Typewriter.output_typeByte hclear)⟩
  · have hreading := State.reading_connected (State.moving_eq_true hinstalled hactive hdir hrunning) hconn hother
    refine ⟨State.endOfRecord_empty hreading hdir, fun hheld hword => ?_, fun hheld hword => ?_⟩
    · obtain ⟨n, d, horder, hrun⟩ := State.endOfRecord_partial hreading hheld
      exact ⟨n, d, horder, hrun.trans (State.storeAndEnd_stores (s := { s with draws := d }) hdir hword)⟩
    · obtain ⟨n, d, -, hrun⟩ := State.endOfRecord_partial hreading hheld
      exact hrun.trans (State.storeAndEnd_absent (s := { s with draws := d }) hword)
  · have hmoving := State.moving_eq_true hinstalled hactive hdir hrunning
    subst hx
    have hswitch : (s.switchesLive && s.typewriterWorks s.config.typewriterChannel
        && s.moving s.config.typewriterChannel .read) = true := by
      simp [State.switchesLive, hlive, hworks, hmoving]
    rw [Async.perform, State.typewriterEnd, if_pos hswitch, State.storeAndEnd_stores hdir hword]
  · rw [Async.perform, State.typewriterEnd, State.switchesLive, hactive, hmaintenance]
    rfl

end Sys2Proof.Machine

/-! Storage parity of operands (49_io R417). A word of bad parity is delivered as a good one is, and sets IR bit 45.
What follows the read does not look at the parity marks and does not clear IR bit 45; that is said once of each
operation of the state, and put together for each instruction. -/

namespace Sys2Proof.Machine

/-! ## Operations that do not look at the parity marks -/

/-- The operation does the same whatever words have bad parity, and it does not clear IR bit 45. -/
structure ParityFree (F : State → State) : Prop where
  commutes : ∀ (t : State) (l : List Addr), F { t with badParity := l } = { F t with badParity := l }
  keepsBit : ∀ t : State, t.irff.getLsbD 45 = true → (F t).irff.getLsbD 45 = true

namespace ParityFree

variable {F G : State → State}

theorem comp (hG : ParityFree G) (hF : ParityFree F) : ParityFree fun t => G (F t) where
  commutes t l := by rw [hF.commutes, hG.commutes]
  keepsBit t h := hG.keepsBit _ (hF.keepsBit t h)

/-- A write of other fields. -/
theorem write (hF : ∀ (t : State) (l : List Addr), F { t with badParity := l } = { F t with badParity := l })
    (hirff : ∀ t : State, (F t).irff = t.irff) : ParityFree F where
  commutes := hF
  keepsBit t h := by rw [hirff, h]

/-- A choice that the parity marks do not enter. -/
theorem ite {c : State → Bool} (hc : ∀ (t : State) (l : List Addr), c { t with badParity := l } = c t)
    (hF : ParityFree F) (hG : ParityFree G) : ParityFree fun t => if c t then F t else G t where
  commutes t l := by
    dsimp only
    rw [hc]
    split
    · exact hF.commutes t l
    · exact hG.commutes t l
  keepsBit t h := by
    split
    · exact hF.keepsBit t h
    · exact hG.keepsBit t h

theorem self : ParityFree fun t => t := write (fun _ _ => rfl) fun _ => rfl

theorem setIr (i : Nat) : ParityFree fun t => t.setIr i where
  commutes _ _ := rfl
  keepsBit t h := by
    show (t.irff ||| bit48 i).getLsbD 45 = true
    rw [BitVec.getLsbD_or, h, Bool.true_or]

theorem setIrIf (i : Nat) {c : State → Bool} (hc : ∀ (t : State) (l : List Addr), c { t with badParity := l } = c t) :
    ParityFree fun t => t.setIrIf i (c t) :=
  ite hc (setIr i) self

theorem advance : ParityFree State.advance := write (fun _ _ => rfl) fun _ => rfl

theorem next24 : ParityFree State.next24 := by
  refine write (fun t l => ?_) State.next24_irff
  simp only [State.next24]
  cases t.half
  · rfl
  · rfl

theorem skipIf {c : State → Bool} (hc : ∀ (t : State) (l : List Addr), c { t with badParity := l } = c t) :
    ParityFree fun t => t.skipIf (c t) :=
  ite hc advance next24

/-- A sum put in A, with its overflow fault. -/
theorem sumInA {x y : State → Word} (hx : ∀ (t : State) (l : List Addr), x { t with badParity := l } = x t)
    (hy : ∀ (t : State) (l : List Addr), y { t with badParity := l } = y t) :
    ParityFree fun t => { t.overflowFault (overflow48 (x t) (y t)) with a := add48 (x t) (y t) } where
  commutes t l := by
    simp only [hx, hy, State.overflowFault]
    cases overflow48 (x t) (y t) <;> rfl
  keepsBit t h := (setIrIf 3 (c := fun t => overflow48 (x t) (y t)) (by simp [hx, hy])).keepsBit t h

theorem addToA {x : State → Word} (hx : ∀ (t : State) (l : List Addr), x { t with badParity := l } = x t) :
    ParityFree fun t => t.addToA (x t) :=
  sumInA (x := State.a) (fun _ _ => rfl) hx

theorem divide {x : State → Word} (hx : ∀ (t : State) (l : List Addr), x { t with badParity := l } = x t) :
    ParityFree fun t => t.divide (x t) := by
  have hquotient : ParityFree fun t => { t with
      a := onesEncodeSigned 48 (quotient t.q t.a (x t)) (Config.quotientZeroNegative t.q.msb (x t).msb)
      q := onesEncodeSigned 48 (remainder t.q t.a (x t)) (Config.remainderZeroNegative t.q.msb (x t).msb) } :=
    write (fun t l => by simp [hx]) fun _ => rfl
  have hfault : ParityFree fun t => { t.divideFault true with
      a := Config.divFaultA t.a t.q (x t), q := Config.divFaultQ t.a t.q (x t) } :=
    { commutes := fun t l => by simp [hx, State.divideFault, State.setIrIf, State.setIr]
      keepsBit := (setIr 2).keepsBit }
  exact ite (c := fun t => divides t.q t.a (x t)) (fun t l => by simp [hx]) hquotient hfault

theorem applyFp {r : State → FpResult} (hr : ∀ (t : State) (l : List Addr), r { t with badParity := l } = r t) :
    ParityFree fun t => t.applyFp (r t) where
  commutes t l := by
    simp only [hr, State.applyFp, State.divideFault, State.exponentOverflow, State.exponentUnderflow]
    cases (r t).divideFault <;> cases (r t).overflow <;> cases (r t).underflow <;> rfl
  keepsBit t h := by
    have hset (u : State) (i : Nat) (c : Bool) (hu : u.irff.getLsbD 45 = true) :
        (u.setIrIf i c).irff.getLsbD 45 = true :=
      (setIrIf i (c := fun _ => c) fun _ _ => rfl).keepsBit u hu
    exact hset _ 5 _ (hset _ 4 _ (hset t 2 _ h))

theorem searchEnd (b : Desig) {c : State → Bool}
    (hc : ∀ (t : State) (l : List Addr), c { t with badParity := l } = c t) :
    ParityFree fun t => t.searchEnd b (c t) := by
  have hend : ParityFree fun t => if decide (t.b b = 0) then t.next24 else t.again .search :=
    ite (fun _ _ => rfl) next24 (write (fun _ _ => rfl) fun _ => rfl)
  simpa only [State.searchEnd, decide_eq_true_eq] using ite hc (skipIf (c := fun _ => true) fun _ _ => rfl) hend

theorem lowerCase (x : BitVec 2) : ParityFree fun t => t.lowerCase x :=
  ite (fun _ _ => rfl) (write (fun _ _ => rfl) fun _ => rfl) self

theorem admitTypewriter (x : BitVec 2) : ParityFree fun t => t.admitTypewriter x :=
  ite (fun _ _ => rfl) (write (fun _ _ => rfl) fun _ => rfl) self

theorem beginOperation (x : BitVec 2) (d : Direction) (w : Word) : ParityFree fun t => t.beginOperation x d w := by
  have hbegin : ParityFree fun t => t.setChannel x ((t.channel x).begin d w) := write (fun _ _ => rfl) fun _ => rfl
  have hcount := ite (c := fun _ => decide (bits w 24 15 = 0)) (fun _ _ => rfl) hbegin
    ((lowerCase x).comp ((admitTypewriter x).comp hbegin))
  simpa only [State.beginOperation, decide_eq_true_eq] using hcount

end ParityFree

/-! ## References in a state without events -/

/-- No event falls inside the instruction, and no breakpoint and no stop is asked for. -/
def State.Still (s : State) : Prop := s.slots = [] ∧ s.console.breakSelect = .off ∧ s.stopRequest = false

/-- The state with other interrupt bits and other parity marks. -/
def State.marked (s : State) (v : Word) (l : List Addr) : State := { s with irff := v, badParity := l }

/-- From the state t the continuation does the same whatever words have bad parity, and IR bit 45 stays set. -/
def State.Agrees (t : State) (k : State → Result) : Prop :=
  ∃ u : State, u.irff.getLsbD 45 = true ∧ ∀ l, k { t with badParity := l } = .next { u with badParity := l }

section
variable {s : State} {a : Addr}

theorem State.Still.noteOperand (hs : s.Still) : s.noteOperand a = s := by
  obtain ⟨-, hbreak, hstop⟩ := hs
  have hnone : (s.stopRequest || s.breakOperand a) = s.stopRequest := by simp [State.breakOperand, hbreak, hstop]
  rw [State.noteOperand, hnone]

/-- A read that delivers its word (R66), with the mark of its parity (R417). -/
theorem State.Still.readOperand (hs : s.Still) (hword : s.hasWord a = true) (k : State → Word → Result) :
    s.readOperand a k = k (s.setIrIf 45 (decide (a ∈ s.badParity))) (Memory.word s.memory a) := by
  rw [State.readOperand, if_pos hword, s.slot_undisturbed _ hs.1, State.noteRead, hs.noteOperand]

theorem State.Still.writeWord (hs : s.Still) (hword : s.hasWord a = true) (v : Word) (k : State → Result) :
    s.writeWord a v k = k { s with memory := Memory.setWord s.memory a v } := by
  rw [State.writeWord, if_pos hword, s.slot_undisturbed _ hs.1, hs.noteOperand]

theorem State.Still.writeField {n : Nat} (hs : s.Still) (hword : s.hasWord a = true) (lo : Nat) (v : BitVec n)
    (k : State → Result) : s.writeField a lo v k = k { s with memory := Memory.setField s.memory a lo v } := by
  rw [State.writeField, if_pos hword, s.slot_undisturbed _ hs.1, hs.noteOperand]

theorem State.Still.setIrIf (hs : s.Still) (i : Nat) (c : Bool) : (s.setIrIf i c).Still := by
  cases c
  · exact hs
  · exact hs

theorem State.irff_setIr_45 (s : State) : (s.setIr 45).irff.getLsbD 45 = true := by
  show (s.irff ||| bit48 45).getLsbD 45 = true
  rw [BitVec.getLsbD_or, show (bit48 45).getLsbD 45 = true by decide, Bool.or_true]

/-- An operation that does not look at the parity marks. -/
theorem ParityFree.agrees {F : State → State} (hF : ParityFree F) {t : State} (h : t.irff.getLsbD 45 = true) :
    t.Agrees fun u => .next (F u) :=
  ⟨F t, hF.keepsBit t h, fun l => congrArg Host.Outcome.next (hF.commutes t l)⟩

/-- A second reference, the store of a word, and what follows it. -/
theorem ParityFree.agrees_writeWord {F : State → State} (hF : ParityFree F) {t : State} (ht : t.Still)
    (h : t.irff.getLsbD 45 = true) (hword : t.hasWord a = true) {v : State → Word}
    (hv : ∀ l, v { t with badParity := l } = v t) : t.Agrees fun u => u.writeWord a (v u) fun u' => .next (F u') := by
  refine ⟨F { t with memory := Memory.setWord t.memory a (v t) }, hF.keepsBit _ h, fun l => ?_⟩
  have hstore := State.Still.writeWord (s := { t with badParity := l }) ht hword (v t) fun u => .next (F u)
  exact (congrArg (fun w => State.writeWord { t with badParity := l } a w fun u => .next (F u)) (hv l)).trans
    (hstore.trans (congrArg Host.Outcome.next (hF.commutes { t with memory := Memory.setWord t.memory a (v t) } l)))

/-- A second reference, the store of a field, and what follows it. -/
theorem ParityFree.agrees_writeField {F : State → State} (hF : ParityFree F) {t : State} (ht : t.Still)
    (h : t.irff.getLsbD 45 = true) (hword : t.hasWord a = true) (lo : Nat) {n : Nat} {v : State → BitVec n}
    (hv : ∀ l, v { t with badParity := l } = v t) :
    t.Agrees fun u => u.writeField a lo (v u) fun u' => .next (F u') := by
  refine ⟨F { t with memory := Memory.setField t.memory a lo (v t) }, hF.keepsBit _ h, fun l => ?_⟩
  have hstore := State.Still.writeField (s := { t with badParity := l }) ht hword lo (v t) fun u => .next (F u)
  exact (congrArg (fun w => State.writeField { t with badParity := l } a lo w fun u => .next (F u)) (hv l)).trans
    (hstore.trans (congrArg Host.Outcome.next (hF.commutes { t with memory := Memory.setField t.memory a lo (v t) } l)))

/-- An operation that does not look at the parity marks comes first. -/
theorem ParityFree.agrees_comp {G : State → State} (hG : ParityFree G) {t : State} {k : State → Result}
    (h : (G t).Agrees k) : t.Agrees fun u => k (G u) := by
  obtain ⟨u, hbit, hu⟩ := h
  exact ⟨u, hbit, fun l => (congrArg k (hG.commutes t l)).trans (hu l)⟩

end

/-! ## Instructions that read one word -/

section
variable {s : State} {a : Addr} {b : Desig} {m : Addr} {f : State → Result} {k : State → Word → Result}
  {F : Word → State → State}

/-- What follows the read of a word of bad parity is what follows that of a good one, with IR bit 45 set (R417). -/
theorem State.Still.accepts_read (hs : s.Still) (hword : s.hasWord a = true) (hbad : a ∈ s.badParity)
    (hf : ∀ v l, f (s.marked v l) = (s.marked v l).readOperand a k)
    (hk : (s.setIr 45).Agrees fun t => k t (Memory.word s.memory a)) : s.AcceptsParity f := by
  obtain ⟨u, hbit, hu⟩ := hk
  have hgood : f { s.setIr 45 with badParity := [] } = k { s.setIr 45 with badParity := [] } (Memory.word s.memory a) :=
    (hf _ []).trans (State.Still.readOperand (s := s.marked (s.irff ||| bit48 45) []) hs hword k)
  have hhere : f s = k (s.setIr 45) (Memory.word s.memory a) := by
    refine (hf s.irff s.badParity).trans ((hs.readOperand hword k).trans ?_)
    rw [decide_eq_true hbad]
    rfl
  exact ⟨{ u with badParity := [] }, hgood.trans (hu []), hbit, hhere.trans (hu s.badParity)⟩

theorem State.Still.accepts_then (hs : s.Still) (hword : s.hasWord a = true) (hbad : a ∈ s.badParity)
    (hF : ∀ w, ParityFree (F w))
    (hf : ∀ v l, f (s.marked v l) = (s.marked v l).readOperand a fun t w => .next (F w t)) : s.AcceptsParity f :=
  hs.accepts_read hword hbad hf ((hF _).agrees s.irff_setIr_45)

/-- An indirect word of a 24-bit instruction (R133). -/
theorem State.Still.accepts_indirect (hs : s.Still) (hword : s.hasWord m = true) (hbad : m ∈ s.badParity)
    (hf : ∀ v l, f (s.marked v l) = (s.marked v l).indirect m) : s.AcceptsParity f :=
  hs.accepts_then (F := fun w t => t.putIndirect w) hword hbad
    (fun _ => .write (fun _ _ => rfl) fun _ => rfl) hf

end

/-! ## Operand forms -/

/-- Here the instruction i reads the word at M and goes on in a way that does not look at the parity marks. -/
def State.ReadsOperand (s : State) (i : Instr) (b : Desig) (m : Addr) : Prop :=
  ∃ F : Word → State → State, (∀ w, ParityFree (F w))
    ∧ ∀ v l, exec i (s.marked v l) = (s.marked v l).withOperand b m fun t w => .next (F w t)

section
variable {s : State} {b : Desig} {m : Addr} {i : Instr}

theorem State.Still.accepts_operand (hs : s.Still) (hb : b ≠ 7) (hword : s.hasWord (s.modified b m) = true)
    (hbad : s.modified b m ∈ s.badParity) (hi : s.ReadsOperand i b m) : s.AcceptsParity (exec i) := by
  obtain ⟨F, hF, hexec⟩ := hi
  exact hs.accepts_then hword hbad hF fun v l => (hexec v l).trans (State.effective_direct _ b m _ hb)

/-- A 24-bit instruction that computes and goes on to the next one. -/
theorem State.readsOperand_next24 {f : Word → State → State} (hf : ∀ w, ParityFree (f w))
    (hexec : ∀ v l, exec i (s.marked v l) = (s.marked v l).withOperand b m fun t w => .next (f w t).next24) :
    s.ReadsOperand i b m :=
  ⟨fun w t => (f w t).next24, fun w => ParityFree.next24.comp (hf w), hexec⟩

/-- Such an instruction that sets registers only. -/
theorem State.readsOperand_write {f : Word → State → State}
    (hf : ∀ w t l, f w { t with badParity := l } = { f w t with badParity := l })
    (hirff : ∀ w t, (f w t).irff = t.irff)
    (hexec : ∀ v l, exec i (s.marked v l) = (s.marked v l).withOperand b m fun t w => .next (f w t).next24) :
    s.ReadsOperand i b m :=
  State.readsOperand_next24 (fun w => .write (hf w) (hirff w)) hexec

/-- The operand forms that store nothing. -/
theorem State.readsOperand_forms (hi : i ∈ operandForms b m)
    (hreplace : i ∉ [Instr.ssh b m, .rad b m, .rsb b m, .rao b m, .rso b m]) : s.ReadsOperand i b m := by
  simp only [operandForms, List.mem_cons, List.not_mem_nil, or_false] at hi
  rcases hi with rfl | rfl | rfl | rfl | rfl | rfl | rfl | rfl | rfl | rfl | rfl | rfl | rfl | rfl | rfl | rfl | hi
  · exact State.readsOperand_write (f := fun w t => { t with a := t.augmented w }) (fun _ _ _ => rfl) (fun _ _ => rfl)
      fun _ _ => rfl
  · exact State.readsOperand_write (f := fun w t => { t with a := ~~~w }) (fun _ _ _ => rfl) (fun _ _ => rfl)
      fun _ _ => rfl
  · exact State.readsOperand_write (f := fun w t => { t with q := t.augmented w }) (fun _ _ _ => rfl) (fun _ _ => rfl)
      fun _ _ => rfl
  · exact State.readsOperand_write (f := fun w t => { t with q := ~~~w }) (fun _ _ _ => rfl) (fun _ _ => rfl)
      fun _ _ => rfl
  · exact State.readsOperand_next24 (fun w => .addToA (x := fun t => t.augmented w) fun _ _ => rfl) fun _ _ => rfl
  · exact State.readsOperand_next24 (fun w => .addToA (x := fun t => ~~~(t.augmented w)) fun _ _ => rfl) fun _ _ => rfl
  · exact State.readsOperand_write (f := fun w t => t.setQA (product96 t.a (t.augmented w))) (fun _ _ _ => rfl)
      (fun _ _ => rfl) fun _ _ => rfl
  · exact State.readsOperand_next24 (fun w => .divide (x := fun t => t.augmented w) fun _ _ => rfl) fun _ _ => rfl
  · exact State.readsOperand_write (f := fun w t => { t with a := t.a ||| w }) (fun _ _ _ => rfl) (fun _ _ => rfl)
      fun _ _ => rfl
  · exact State.readsOperand_write (f := fun w t => { t with a := t.a &&& ~~~w }) (fun _ _ _ => rfl) (fun _ _ => rfl)
      fun _ _ => rfl
  · exact State.readsOperand_write (f := fun w t => { t with a := t.a ^^^ w }) (fun _ _ _ => rfl) (fun _ _ => rfl)
      fun _ _ => rfl
  · exact State.readsOperand_write (f := fun w t => { t with a := (t.a &&& ~~~t.q) ||| (w &&& t.q) })
      (fun _ _ _ => rfl) (fun _ _ => rfl) fun _ _ => rfl
  · exact State.readsOperand_write (f := fun w t => { t with a := t.q &&& w }) (fun _ _ _ => rfl) (fun _ _ => rfl)
      fun _ _ => rfl
  · exact State.readsOperand_next24 (fun w => .addToA (x := fun t => t.q &&& w) fun _ _ => rfl) fun _ _ => rfl
  · exact State.readsOperand_next24 (fun w => .addToA (x := fun t => ~~~(t.q &&& w)) fun _ _ => rfl) fun _ _ => rfl
  · exact ⟨fun w t => t.skipIf w.msb, fun w => .skipIf (c := fun _ => w.msb) fun _ _ => rfl, fun _ _ => rfl⟩
  · exact absurd (by simpa using hi) hreplace

theorem State.readsOperand_floating (hoption : s.config.floatingOption = true) {low : BitVec 2}
    (f : Word → Word → AugT → FpResult) (hexec : ∀ t : State, exec i t = t.floating low b m f) :
    s.ReadsOperand i b m :=
  State.readsOperand_next24
    (fun w => .applyFp (r := fun t => f t.a (t.augmented w) t.designators) fun _ _ => rfl)
    fun v l => (hexec (s.marked v l)).trans (if_pos hoption)

/-- The floating point option does with its operand what the basic machine does (R107). -/
theorem State.readsOperand_floatingForms (hi : i ∈ floatingForms b m) (hoption : s.config.floatingOption = true) :
    s.ReadsOperand i b m := by
  simp only [floatingForms, List.mem_cons, List.not_mem_nil, or_false] at hi
  rcases hi with rfl | rfl | rfl | rfl
  · exact State.readsOperand_floating hoption fad fun _ => rfl
  · exact State.readsOperand_floating hoption fsb fun _ => rfl
  · exact State.readsOperand_floating hoption fmu fun _ => rfl
  · exact State.readsOperand_floating hoption fdv fun _ => rfl

/-- SSH reads its word and stores it shifted (R276). -/
theorem State.Still.accepts_ssh (hs : s.Still) (hb : b ≠ 7) (hword : s.hasWord (s.modified b m) = true)
    (hbad : s.modified b m ∈ s.badParity) (hin : s.outOfBounds (s.modified b m) = false) :
    s.AcceptsParity (exec (.ssh b m)) := by
  have hreads (v : Word) (l : List Addr) : exec (.ssh b m) (s.marked v l)
      = (s.marked v l).readOperand (s.modified b m) fun t w =>
        t.writeWord (s.modified b m) (rotl w 1) fun u => .next (u.skipIf w.msb) := by
    rw [exec, execSsh, State.effective_direct _ _ _ _ hb]
    exact if_neg (show ¬ s.outOfBounds (s.modified b m) = true by simp [hin])
  refine hs.accepts_read hword hbad hreads ?_
  exact (ParityFree.skipIf (c := fun _ => (Memory.word s.memory (s.modified b m)).msb) fun _ _ => rfl).agrees_writeWord
    (t := s.setIr 45) (v := fun _ => rotl (Memory.word s.memory (s.modified b m)) 1) hs s.irff_setIr_45 hword
    fun _ => rfl

/-- A replace instruction reads its word and stores the sum (R270). -/
theorem State.Still.accepts_replaceSum (hs : s.Still) (hb : b ≠ 7) (hword : s.hasWord (s.modified b m) = true)
    (hbad : s.modified b m ∈ s.badParity) (hin : s.outOfBounds (s.modified b m) = false) {y : State → Word}
    (hy : ∀ (t : State) (l : List Addr), y { t with badParity := l } = y t)
    (hexec : ∀ t : State, exec i t = t.replaceSum b m (fun _ w => w) fun u _ => y u) : s.AcceptsParity (exec i) := by
  have hreads (v : Word) (l : List Addr) : exec i (s.marked v l)
      = (s.marked v l).readOperand (s.modified b m) fun t w =>
        State.writeWord { t.overflowFault (overflow48 w (y t)) with a := add48 w (y t) } (s.modified b m)
          (add48 w (y t)) fun u => .next u.next24 := by
    rw [hexec, State.replaceSum, State.effective_direct _ _ _ _ hb]
    exact if_neg (show ¬ s.outOfBounds (s.modified b m) = true by simp [hin])
  refine hs.accepts_read hword hbad hreads ?_
  have hsum := ParityFree.sumInA (x := fun _ => Memory.word s.memory (s.modified b m)) (fun _ _ => rfl) hy
  have hstill (c : Bool) (w : Word) : State.Still { (s.setIr 45).overflowFault c with a := w } :=
    State.Still.setIrIf (s := s.setIr 45) hs 3 c
  have hthere (c : Bool) (w : Word) :
      State.hasWord { (s.setIr 45).overflowFault c with a := w } (s.modified b m) = true := by
    simpa [State.hasWord, State.overflowFault] using hword
  exact hsum.agrees_comp (k := fun u => u.writeWord (s.modified b m) u.a fun u' => .next u'.next24)
    (ParityFree.next24.agrees_writeWord (v := State.a) (hstill _ _) (hsum.keepsBit _ s.irff_setIr_45) (hthere _ _)
      fun _ => rfl)

theorem State.Still.accepts_replaceForms (hs : s.Still) (hb : b ≠ 7) (hword : s.hasWord (s.modified b m) = true)
    (hbad : s.modified b m ∈ s.badParity) (hin : s.outOfBounds (s.modified b m) = false)
    (hi : i ∈ [Instr.ssh b m, .rad b m, .rsb b m, .rao b m, .rso b m]) : s.AcceptsParity (exec i) := by
  simp only [List.mem_cons, List.not_mem_nil, or_false] at hi
  rcases hi with rfl | rfl | rfl | rfl | rfl
  · exact hs.accepts_ssh hb hword hbad hin
  · exact hs.accepts_replaceSum hb hword hbad hin (y := fun t => t.a) (fun _ _ => rfl) fun _ => rfl
  · exact hs.accepts_replaceSum hb hword hbad hin (y := fun t => ~~~t.a) (fun _ _ => rfl) fun _ => rfl
  · exact hs.accepts_replaceSum hb hword hbad hin (y := fun _ => 1) (fun _ _ => rfl) fun _ => rfl
  · exact hs.accepts_replaceSum hb hword hbad hin (y := fun _ => 0o7777777777777776) (fun _ _ => rfl) fun _ => rfl

end

/-! ## Index loads and searches -/

section
variable {s : State} {b : Desig} {m a : Addr} {i : Instr}

theorem State.Still.accepts_indexLoads (hs : s.Still) (hb : b ≠ 7) (hword : s.hasWord m = true)
    (hbad : m ∈ s.badParity) : s.AcceptsParity (exec (.liu b m)) ∧ s.AcceptsParity (exec (.lil b m)) := by
  have hload (lo : Nat) (w : Word) : ParityFree fun t => (t.setB b (bits w lo 15)).next24 :=
    ParityFree.next24.comp (.write (fun _ _ => rfl) fun _ => rfl)
  exact ⟨hs.accepts_then hword hbad (hload 24) fun _ _ => State.resolve_direct _ b m _ hb,
    hs.accepts_then hword hbad (hload 0) fun _ _ => State.resolve_direct _ b m _ hb⟩

theorem exists_searches_test (hi : i ∈ [Instr.eqs b m, .ths b m, .meq b m, .mth b m]) :
    ∃ test, Searches i b m test := by
  simp only [List.mem_cons, List.not_mem_nil, or_false] at hi
  rcases hi with rfl | rfl | rfl | rfl
  · exact ⟨fun a _ x => decide (x = a), fun _ => rfl⟩
  · exact ⟨fun a _ x => gt48 x a, fun _ => rfl⟩
  · exact ⟨fun a q x => decide (q &&& x = a), fun _ => rfl⟩
  · exact ⟨fun a q x => gt48 (q &&& x) a, fun _ => rfl⟩

/-- One iteration of a search, which may have counted the index register down first (R281). -/
theorem State.Still.accepts_search (hs : s.Still) (hi : i ∈ [Instr.eqs b m, .ths b m, .meq b m, .mth b m])
    (ha : (b = 0 ∧ a = m) ∨ (b ≠ 0 ∧ b ≠ 7 ∧ s.b b ≠ 0 ∧ a = add15 m (s.b b - 1))) (hword : s.hasWord a = true)
    (hbad : a ∈ s.badParity) : s.AcceptsParity (exec i) := by
  obtain ⟨test, htest⟩ := exists_searches_test hi
  rcases ha with ⟨rfl, rfl⟩ | ⟨h0, h7, hsome, rfl⟩
  · exact hs.accepts_then hword hbad
      (fun w => .skipIf (c := fun t => test t.a t.q w) fun _ _ => rfl) fun v l => htest (s.marked v l)
  · have hcounted : (s.setB b (s.b b - 1)).AcceptsParity fun t => t.readOperand (add15 m (s.b b - 1)) fun u w =>
        .next (u.searchEnd b (test u.a u.q w)) :=
      State.Still.accepts_then hs hword hbad
        (fun w => .searchEnd b (c := fun t => test t.a t.q w) fun _ _ => rfl) fun _ _ => rfl
    have hcounts (v : Word) (l : List Addr) : exec i (s.marked v l)
        = ((s.marked v l).setB b (s.b b - 1)).readOperand (add15 m (s.b b - 1)) fun u w =>
          .next (u.searchEnd b (test u.a u.q w)) := by
      rw [htest, State.search, State.resolve_direct _ _ _ _ h7, if_neg h0]
      exact if_neg hsome
    obtain ⟨t, hgood, hbit, hhere⟩ := hcounted
    exact ⟨t, (hcounts _ []).trans hgood, hbit, (hcounts s.irff s.badParity).trans hhere⟩

end

/-! ## Indirect words -/

section
variable {s : State} {b v : Desig} {m y : Addr} {i : Instr}

theorem State.Still.accepts_bankIndirect (hs : s.Still) (hword : s.hasWord m = true) (hbad : m ∈ s.badParity)
    (hi : i ∈ [Instr.ubjp 7 m, .brtj 7 m, .bjpl 7 m]) : s.AcceptsParity (exec i) := by
  have hresume (jump : Desig → Addr → Instr) (w : Word) : ParityFree fun t =>
      { t.again (.indirect (bits w 15 3) (bits w 0 15)) with resumed := some (jump (bits w 15 3) (bits w 0 15)) } :=
    .write (fun _ _ => rfl) fun _ => rfl
  simp only [List.mem_cons, List.not_mem_nil, or_false] at hi
  rcases hi with rfl | rfl | rfl
  · exact hs.accepts_then hword hbad (hresume .ubjp) fun _ _ => rfl
  · exact hs.accepts_then hword hbad (hresume .brtj) fun _ _ => rfl
  · exact hs.accepts_then hword hbad (hresume .bjpl) fun _ _ => rfl

theorem State.Still.accepts_indirectForms (hs : s.Still) (hword : s.hasWord m = true) (hbad : m ∈ s.badParity)
    (hi : i ∈ indirectForms m ∨ (i ∈ floatingForms 7 m ∧ s.config.floatingOption = true)
      ∨ i ∈ [Instr.ubjp 7 m, .brtj 7 m, .bjpl 7 m]) : s.AcceptsParity (exec i) := by
  rcases hi with hi | ⟨hi, hoption⟩ | hi
  · exact hs.accepts_indirect hword hbad fun _ _ => exec_indirectForms m hi
  · exact hs.accepts_indirect hword hbad fun v l =>
      exec_floatingForms_indirect (s := s.marked v l) m hoption hi
  · exact hs.accepts_bankIndirect hword hbad hi

/-- The word that replaces v in an AUG (R337). -/
theorem State.Still.accepts_augIndirect (hs : s.Still) (hhalf : s.half = .upper)
    (hv : augV s.config.layouts.aug y = 7) (hword : s.hasWord (bits s.u 0 15) = true)
    (hbad : bits s.u 0 15 ∈ s.badParity) : s.AcceptsParity (exec (.aug y)) := by
  have hput (w : Word) : ParityFree fun t => { t.again (.indirect (bits w 15 3) (bits w 0 15)) with
      u := setBits (putAugV t.config.layouts.aug t.u (bits w 15 3)) 0 (bits w 0 15) } :=
    .write (fun _ _ => rfl) fun _ => rfl
  exact hs.accepts_then hword hbad hput fun v l => exec_aug_indirect (s := s.marked v l) hhalf hv

theorem State.Still.accepts_characterIndirect (hs : s.Still) (hv : v ≠ 7)
    (hp : (s.b v).toNat ∈ [0, 6, 12, 18, 24, 30, 36, 42]) (hword : s.hasWord m = true) (hbad : m ∈ s.badParity)
    (hi : i ∈ [Instr.ldch 7 v m, .stch 7 v m]) : s.AcceptsParity (exec i) := by
  have hput (w : Word) : ParityFree fun t => { t.again (.indirect (bits w 15 3) (bits w 0 15)) with
      u := setBits (setBits t.u 39 (bits w 15 3)) 0 (bits w 0 15) } :=
    .write (fun _ _ => rfl) fun _ => rfl
  exact hs.accepts_then hword hbad hput fun u l => exec_character_indirect (s := s.marked u l) hv hp hi

end

/-! ## Characters, control words and output words -/

section
variable {s : State} {b v : Desig} {m : Addr}

/-- LDCH (R333). -/
theorem State.Still.accepts_ldch (hs : s.Still) (hb : b ≠ 7) (hv : v ≠ 7)
    (hp : (s.b v).toNat ∈ [0, 6, 12, 18, 24, 30, 36, 42]) (hword : s.hasWord (s.modified b m) = true)
    (hbad : s.modified b m ∈ s.badParity) : s.AcceptsParity (exec (.ldch b v m)) := by
  have hload (w : Word) : ParityFree fun t =>
      ({ t with a := (bits w (s.b v).toNat 6).setWidth 48 } : State).advance :=
    .write (fun _ _ => rfl) fun _ => rfl
  exact hs.accepts_then hword hbad hload fun u l => by
    rw [exec, execLdch, State.character_direct (s := s.marked u l) hb hv hp]
    rfl

/-- STCH, whose second reference is a store (R334). -/
theorem State.Still.accepts_stch (hs : s.Still) (hb : b ≠ 7) (hv : v ≠ 7)
    (hp : (s.b v).toNat ∈ [0, 6, 12, 18, 24, 30, 36, 42]) (hword : s.hasWord (s.modified b m) = true)
    (hbad : s.modified b m ∈ s.badParity) (hin : s.outOfBounds (s.modified b m) = false) :
    s.AcceptsParity (exec (.stch b v m)) := by
  have hreads (u : Word) (l : List Addr) : exec (.stch b v m) (s.marked u l)
      = (s.marked u l).readOperand (s.modified b m) fun t _ =>
        t.writeField (s.modified b m) (s.b v).toNat (bits t.a 0 6) fun t' => .next t'.advance := by
    rw [exec, execStch, State.character_direct (s := s.marked u l) hb hv hp]
    exact if_neg (show ¬ s.outOfBounds (s.modified b m) = true by simp [hin])
  refine hs.accepts_read hword hbad hreads ?_
  exact ParityFree.advance.agrees_writeField (t := s.setIr 45) (v := fun t => bits t.a 0 6) hs s.irff_setIr_45 hword
    (s.b v).toNat fun _ => rfl

/-- The control word of BEGR and BEGW (R388, R389). -/
theorem State.Still.accepts_controlWord (hs : s.Still) {x : BitVec 2} (n : Addr) (huse : s.CanUse x)
    (hidle : (s.channel x).active = false) (hword : s.hasWord m = true) (hbad : m ∈ s.badParity) :
    s.AcceptsParity (exec (.begr x m n)) ∧ s.AcceptsParity (exec (.begw x m n)) := by
  have hbegin (d : Direction) (w : Word) : ParityFree fun t => (t.beginOperation x d w).advance :=
    ParityFree.advance.comp (.beginOperation x d w)
  have hfree : ¬ (s.channel x).active = true := by simp [hidle]
  exact ⟨hs.accepts_then hword hbad (hbegin .read) fun u l =>
      (State.onIo_obeyed (s := s.marked u l) huse _).trans (if_neg hfree),
    hs.accepts_then hword hbad (hbegin .write) fun u l =>
      (State.onIo_obeyed (s := s.marked u l) huse _).trans (if_neg hfree)⟩

/-- A word that a channel takes from storage (R394, R417). -/
theorem State.acceptsParity_wordOut {x : BitVec 2} (stepNow : Bool) (hmoving : s.moving x .write = true)
    (hheld : (s.channel x).held = 0) (hcount : (s.channel x).count ≠ 0)
    (hword : s.hasWord (s.channel x).addr = true) (hbad : (s.channel x).addr ∈ s.badParity) :
    s.AcceptsParity (Async.wordOut x stepNow).perform := by
  have hhere := State.wordOut_reads stepNow hmoving hheld hcount hword
  rw [decide_eq_true hbad] at hhere
  exact ⟨_, State.wordOut_reads (s := { s.setIr 45 with badParity := [] }) stepNow hmoving hheld hcount hword,
    s.irff_setIr_45, hhere⟩

end

/-- Settles O12: every read of a word of bad parity, by the kind of the word that is read. -/
theorem operandParity : Obligations.OperandParity := by
  intro s hslots hbreak hstop
  have hs : s.Still := ⟨hslots, hbreak, hstop⟩
  refine ⟨fun b m i hb hword hbad hi hin => ?_, fun b m hb hword hbad => hs.accepts_indexLoads hb hword hbad,
    fun b m a i hi ha hword hbad => hs.accepts_search hi ha hword hbad,
    fun m i hword hbad hi => hs.accepts_indirectForms hword hbad hi,
    fun y hhalf hv hword hbad => hs.accepts_augIndirect hhalf hv hword hbad,
    fun b v m hv hp => ⟨fun hb hword hbad => ⟨hs.accepts_ldch hb hv hp hword hbad,
      hs.accepts_stch hb hv hp hword hbad⟩, fun hword hbad => ⟨?_, ?_⟩⟩,
    fun x m n huse hidle hword hbad => hs.accepts_controlWord n huse hidle hword hbad,
    fun x stepNow hinstalled hactive hdir hrunning hheld hcount hword hbad =>
      State.acceptsParity_wordOut stepNow (State.moving_eq_true hinstalled hactive hdir hrunning) hheld hcount hword
        hbad⟩
  · by_cases hreplace : i ∈ [Instr.ssh b m, .rad b m, .rsb b m, .rao b m, .rso b m]
    · exact hs.accepts_replaceForms hb hword hbad (hin.resolve_right (not_not_intro hreplace)) hreplace
    · refine hs.accepts_operand hb hword hbad ?_
      rcases hi with hi | ⟨hi, hoption⟩
      · exact State.readsOperand_forms hi hreplace
      · exact State.readsOperand_floatingForms hi hoption
  · exact hs.accepts_characterIndirect hv hp hword hbad (List.mem_cons_self ..)
  · exact hs.accepts_characterIndirect hv hp hword hbad (List.mem_cons_of_mem _ (List.mem_cons_self ..))

end Sys2Proof.Machine
